-- ==== Sys2Proof/Word.lean ====
section
/-! DEFINITION. The word type of the hardware. Every field of every frame and every operand is a byte or a
sequence of bytes (20_memory.md R53, 00_scope.md R15); no rule forms an integer from more than one byte. -/

namespace Sys2Proof

/-- A byte, an unsigned value 0 to 255 (R15). -/
abbrev Byte := BitVec 8

/-- The byte that holds a count or a channel number (R89: no scaling, no bias). Only the low 8 bits of the number
are kept; every use in the model is within 0 to 255. -/
abbrev byteOf (n : Nat) : Byte := BitVec.ofNat 8 n

end Sys2Proof
end

