-- ==== Sys2Proof/Syntax.lean ====
section
/-! DEFINITION. The instruction set of the core as syntax: the 18 wire commands (level W) and the 22 host operations
(level H) of 00_scope.md R3, the three response classes of 30_encoding.md R86, and the three raw forms they are
encoded in (request frame R80, response frame R81, host port request R90). -/

namespace Sys2Proof

/-- The 18 wire commands, in the order of the source's command opcode table (R3, R84). -/
inductive WireCmd where
  | pingChannel | findFirst | findNext | getAddress | setSearchOnlyAlarming | setNoResetSearch | setSearchAll
  | putBit | getByte | getBlock | dataBlock | reset | putByte | setPowerNormal | targetFamily | targetAllFamilies
  | searchRom | matchRom
  deriving DecidableEq, Repr

/-- All wire commands, in the order of R84. -/
def WireCmd.all : List WireCmd :=
  [.pingChannel, .findFirst, .findNext, .getAddress, .setSearchOnlyAlarming, .setNoResetSearch, .setSearchAll,
   .putBit, .getByte, .getBlock, .dataBlock, .reset, .putByte, .setPowerNormal, .targetFamily, .targetAllFamilies,
   .searchRom, .matchRom]

/-- The 22 host operations, in the order of R91. -/
inductive HostOp where
  | selectPort | freePort | adapterDetected | findFirstDevice | findNextDevice | getAddress | isPresent | select
  | reset | putBit | getBit | putByte | getByte | getBlock | dataBlock | setSearchOnlyAlarmingDevices
  | setNoResetSearch | setSearchAllDevices | targetFamily | targetAllFamilies | beginExclusive | endExclusive
  deriving DecidableEq, Repr

/-- All host operations, in the order of R91. -/
def HostOp.all : List HostOp :=
  [.selectPort, .freePort, .adapterDetected, .findFirstDevice, .findNextDevice, .getAddress, .isPresent, .select,
   .reset, .putBit, .getBit, .putByte, .getByte, .getBlock, .dataBlock, .setSearchOnlyAlarmingDevices,
   .setNoResetSearch, .setSearchAllDevices, .targetFamily, .targetAllFamilies, .beginExclusive, .endExclusive]

/-- A device address: eight bytes, `b0` first on the link (R18, R53). Every value is legal (R92). -/
structure DevAddr where
  b0 : Byte
  b1 : Byte
  b2 : Byte
  b3 : Byte
  b4 : Byte
  b5 : Byte
  b6 : Byte
  b7 : Byte
  deriving DecidableEq, Repr

/-- The request fields of the host port (R90; they are also the host port's request registers, R30). `sid` and `off`
are numbers because their widths are parameters; `port` is an opaque name. -/
structure HostRequest where
  sid : Nat
  op : BitVec 5
  val8 : Byte
  len8 : Byte
  off : Nat
  addr : DevAddr
  blocking : Bool
  port : Nat
  deriving DecidableEq, Repr

/-- One encoded instruction: a host port request (format HOSTOP), a request frame (format REQ) or a response frame
(format RESP). Which of the three it is follows from the interface it stands at, never from its bits (R83). -/
inductive Encoded where
  | host (r : HostRequest)
  | request (bytes : List Byte)
  | response (bytes : List Byte)
  deriving DecidableEq, Repr

/-- Why a decoder rejects what it is given. -/
inductive DecodeError where
  /-- Host op codes 22 to 31 (R97 a). -/
  | reservedOp
  /-- Fewer bytes than the frame declares (R111 `Short`, R113 `ShortHeader` and `ShortPayload`). -/
  | short
  /-- A request frame that does not begin with `MARKER` (R97 c, R111). -/
  | badMarker
  /-- A command byte outside the image of `OPC` (R97 d). -/
  | unknownCommand
  /-- A length byte that the command's shape does not allow (R130). -/
  | badLength
  /-- A PUT_BIT payload byte that is neither `bool8(true)` nor `bool8(false)` (R87). -/
  | badBool
  deriving DecidableEq, Repr

/-- The instructions: one constructor for each row of spec/opcode_table.json. The `cmd…` constructors are the request
frames (R131 to R148), with the frame's channel byte and payload as operands; then come the host operations (R91),
each with the issuing session and the operands R91 gives it; then the response frames by status class (R86). -/
inductive Instr where
  | cmdPingChannel (ch : Byte)
  | cmdFindFirst (ch : Byte)
  | cmdFindNext (ch : Byte)
  | cmdGetAddress (ch : Byte)
  | cmdSetSearchOnlyAlarming (ch : Byte)
  | cmdSetNoResetSearch (ch : Byte)
  | cmdSetSearchAll (ch : Byte)
  | cmdPutBit (ch : Byte) (v : Bool)
  | cmdGetByte (ch : Byte)
  | cmdGetBlock (ch : Byte) (n : Byte)
  | cmdDataBlock (ch : Byte) (block : List Byte)
  | cmdReset (ch : Byte)
  | cmdPutByte (ch : Byte) (v : Byte)
  | cmdSetPowerNormal (ch : Byte) (pay : List Byte)
  | cmdTargetFamily (ch : Byte) (family : Byte)
  | cmdTargetAllFamilies (ch : Byte)
  | cmdSearchRom (ch : Byte) (addr : DevAddr)
  | cmdMatchRom (ch : Byte) (addr : DevAddr)
  | selectPort (sid : Nat) (port : Nat)
  | freePort (sid : Nat) (port : Nat)
  | adapterDetected (sid : Nat)
  | findFirstDevice (sid : Nat)
  | findNextDevice (sid : Nat)
  | getAddress (sid : Nat) (off : Nat)
  | isPresent (sid : Nat) (addr : DevAddr)
  | select (sid : Nat) (addr : DevAddr)
  | reset (sid : Nat)
  | putBit (sid : Nat) (v : Bool)
  | getBit (sid : Nat)
  | putByte (sid : Nat) (v : Byte)
  | getByte (sid : Nat)
  | getBlock (sid : Nat) (n : Byte)
  | dataBlock (sid : Nat) (off : Nat) (n : Byte)
  | setSearchOnlyAlarmingDevices (sid : Nat)
  | setNoResetSearch (sid : Nat)
  | setSearchAllDevices (sid : Nat)
  | targetFamily (sid : Nat) (family : Byte)
  | targetAllFamilies (sid : Nat)
  | beginExclusive (sid : Nat) (blocking : Bool)
  | endExclusive (sid : Nat)
  | respSuccess (ch : Byte) (pay : List Byte)
  | respFailure (ch : Byte) (pay : List Byte)
  | respOther (ch : Byte) (status : Byte) (pay : List Byte)
  deriving DecidableEq, Repr

end Sys2Proof
end

