-- ==== Sys2Proof/Config.lean ====
section
/-! DEFINITION. The configuration of 00_scope.md R7 to R14, as plain data that a state carries unchanged for its whole
life (R34), and the free values the spec leaves open, as constants with no body. A statement that quantifies over
every state quantifies over every configuration. -/

namespace Sys2Proof

/-- One entry for each of the 18 wire commands. -/
structure CmdTable (α : Type) where
  pingChannel : α
  findFirst : α
  findNext : α
  getAddress : α
  setSearchOnlyAlarming : α
  setNoResetSearch : α
  setSearchAll : α
  putBit : α
  getByte : α
  getBlock : α
  dataBlock : α
  reset : α
  putByte : α
  setPowerNormal : α
  targetFamily : α
  targetAllFamilies : α
  searchRom : α
  matchRom : α
  deriving DecidableEq, Repr

/-- The entry of a command. -/
def CmdTable.get {α : Type} (t : CmdTable α) : WireCmd → α
  | .pingChannel => t.pingChannel
  | .findFirst => t.findFirst
  | .findNext => t.findNext
  | .getAddress => t.getAddress
  | .setSearchOnlyAlarming => t.setSearchOnlyAlarming
  | .setNoResetSearch => t.setNoResetSearch
  | .setSearchAll => t.setSearchAll
  | .putBit => t.putBit
  | .getByte => t.getByte
  | .getBlock => t.getBlock
  | .dataBlock => t.dataBlock
  | .reset => t.reset
  | .putByte => t.putByte
  | .setPowerNormal => t.setPowerNormal
  | .targetFamily => t.targetFamily
  | .targetAllFamilies => t.targetAllFamilies
  | .searchRom => t.searchRom
  | .matchRom => t.matchRom

/-- What an entry of the configuration table `SETTLE` is (R130): one of the three named delays of its default column, or
any other number of milliseconds. No rule says which delays a table other than the default one may hold, and the source's
"e.g." admits more than it lists (92_eei_decisions.md D33): DESIGN CHOICE, every whole number of milliseconds, log entry
28. -/
inductive SettleClass where
  | probe | block | standard
  | delay (ms : Nat)
  deriving DecidableEq, Repr

/-- `PRESENCE_ERR_POLICY` (R13, R200). -/
inductive PresencePolicy where
  | asNotFound | raise
  deriving DecidableEq, Repr, Inhabited

/-- The configuration. `respLen` is R11's table (its entries for GET_BLOCK, DATA_BLOCK and SET_POWER_NORMAL are never
read: the first two take the length from their operand, the third has none, R130). Times are in milliseconds (R12). -/
structure Config where
  maxChannels : Nat
  nSessions : Nat
  bufAw : Nat
  marker : Byte
  stSuccess : Byte
  stFailure : Byte
  opc : CmdTable Byte
  respLen : CmdTable Byte
  settle : CmdTable SettleClass
  tAcqRetry : Nat
  tSettleBlock : Nat
  tSettleProbe : Nat
  tSettleDefault : Nat
  tReadTimeout : Nat
  downgrade : Bool
  presencePolicy : PresencePolicy
  flagByte : Byte
  deriving DecidableEq, Repr

/-- What the spec requires of a configuration: R7, R8, R14, the injectivity of `OPC` (R10), and
`ST_SUCCESS ≠ ST_FAILURE` (92_eei_decisions.md D4). -/
abbrev Config.Wf (c : Config) : Prop :=
  1 ≤ c.maxChannels ∧ c.maxChannels ≤ 256 ∧ 1 ≤ c.nSessions ∧ 1 ≤ c.bufAw ∧
    (WireCmd.all.map c.opc.get).Nodup ∧ c.stSuccess ≠ c.stFailure

/-- `OPC_REF` (R10): the position of the name in the source's list, counted from 1. It is the spec's reference
assignment for its table and vectors, not the real hardware's. -/
def Config.opcRef : CmdTable Byte :=
  { pingChannel := 0x01, findFirst := 0x02, findNext := 0x03, getAddress := 0x04, setSearchOnlyAlarming := 0x05,
    setNoResetSearch := 0x06, setSearchAll := 0x07, putBit := 0x08, getByte := 0x09, getBlock := 0x0A,
    dataBlock := 0x0B, reset := 0x0C, putByte := 0x0D, setPowerNormal := 0x0E, targetFamily := 0x0F,
    targetAllFamilies := 0x10, searchRom := 0x11, matchRom := 0x12 }

/-- The default `RESP_LEN` table (R130). -/
def Config.respLenDefault : CmdTable Byte :=
  { pingChannel := 0, findFirst := 1, findNext := 1, getAddress := 8, setSearchOnlyAlarming := 0,
    setNoResetSearch := 0, setSearchAll := 0, putBit := 1, getByte := 1, getBlock := 0, dataBlock := 0, reset := 0,
    putByte := 0, setPowerNormal := 0, targetFamily := 0, targetAllFamilies := 0, searchRom := 1, matchRom := 1 }

/-- The default `SETTLE` table (R130). -/
def Config.settleDefault : CmdTable SettleClass :=
  { pingChannel := .probe, findFirst := .standard, findNext := .standard, getAddress := .standard,
    setSearchOnlyAlarming := .standard, setNoResetSearch := .standard, setSearchAll := .standard, putBit := .standard,
    getByte := .standard, getBlock := .standard, dataBlock := .block, reset := .standard, putByte := .standard,
    setPowerNormal := .standard, targetFamily := .standard, targetAllFamilies := .standard, searchRom := .standard,
    matchRom := .standard }

/-- `PRESENCE_ERR_POLICY` of the reference configuration: the spec gives no default (R13), so no value is chosen. -/
opaque Config.openPolicy : PresencePolicy

/-- `T_READ_TIMEOUT` of the reference configuration: the transport's, no value given (R12). No rule reads it. -/
opaque Config.openReadTimeout : Nat

/-- The configuration of `State.reset` and of `decodeTableWord`: every documented default, `OPC_REF`, and for the open
sizes `MAX_CHANNELS`, `N_SESSIONS`, `BUF_AW` the sizes 2, 2, 8 of several of the spec's own vectors.
DESIGN CHOICE, unsafe if a statement rested on those sizes: see log entry 1. -/
def Config.reference : Config :=
  { maxChannels := 2, nSessions := 2, bufAw := 8, marker := 0xDD, stSuccess := 0x00, stFailure := 0xFF,
    opc := Config.opcRef, respLen := Config.respLenDefault, settle := Config.settleDefault,
    tAcqRetry := 50, tSettleBlock := 1, tSettleProbe := 1000, tSettleDefault := 0,
    tReadTimeout := Config.openReadTimeout, downgrade := true, presencePolicy := Config.openPolicy,
    flagByte := 0x01 }

/-! Free values. Each is applied to a counter of the state, so that every use is a fresh draw (93 U3, U5, U10). -/

/-- The `info` field of a result whose rule does not name it (R93, U10). -/
opaque Config.freeInfo : Nat → BitVec 16
/-- The `rbool` field of a result whose rule does not name it (R93, U10). -/
opaque Config.freeBool : Nat → Bool
/-- The `rbyte` field of a result whose rule does not name it (R93, U10). -/
opaque Config.freeByte : Nat → Byte
/-- The `rlen` field of a result whose rule does not name it (R93, U10). -/
opaque Config.freeLen : Nat → Byte
/-- The bytes of `rdata` that a result's rule does not name (R93, U10): draw number, then index. -/
opaque Config.freeData : Nat → Nat → Byte
/-- The eight bytes getAddress delivers while `addrValid = 0` (R23, R225, U3): draw number, then index. -/
opaque Config.freeAddr : Nat → Nat → Byte
/-- The byte an operation takes from a valid payload that is not one byte long, as only another `RESP_LEN` table than the
default one can make it: the rules state no result there (R11, R192, R194, R198, R199, R228): draw number, then channel
(DESIGN CHOICE, log entry 16). -/
opaque Config.freePayload : Nat → Nat → Byte
/-- A byte of the recorded address that a valid GET_ADDRESS payload of fewer than eight bytes does not hold (R11, R23,
R228): draw number, then channel, then index (DESIGN CHOICE, log entry 16). -/
opaque Config.freeFetched : Nat → Nat → Nat → Byte
/-- What the environment answers a write once the scripted answers are used up (R56, U5). -/
opaque Config.freeWrite : Nat → Bool
/-- What the environment answers a flush once the scripted answers are used up (R57, U5). -/
opaque Config.freeFlush : Nat → Bool
/-- What arrives before the timeout of a read once the scripted arrivals are used up (R58, U5). -/
opaque Config.freeArrival : Nat → List Byte
/-- What the connection code answers once the scripted answers are used up (R170). -/
opaque Config.freeConnect : Nat → Bool

end Sys2Proof
end

