-- ==== Sys2Proof/WellFormed.lean ====
section
/-! DEFINITION. When an instruction is one the core may be given or may send: the operand ranges of 30_encoding.md R92
and R97, the channel range of 00_scope.md R7, and the payload bound of R89. -/

namespace Sys2Proof

/-- A request frame to channel `ch` with `n` payload bytes: the channel exists (R7, R80) and the length byte can hold
the count (R89). -/
def frameOk (c : Config) (ch : Byte) (n : Nat) : Bool :=
  decide (ch.toNat < c.maxChannels) && decide (n ≤ 255)

/-- The issuing session exists (R92). -/
def sessionOk (c : Config) (sid : Nat) : Bool := decide (sid < c.nSessions)

/-- The region `BUF[off .. off+n)` lies inside `BUF` and `off` has `BUF_AW` bits (R50, R90, R92). -/
def regionOk (c : Config) (off n : Nat) : Bool :=
  decide (off < 2 ^ c.bufAw) && decide (off + n ≤ 2 ^ c.bufAw)

/-- Well-formedness of an instruction under a configuration. A response's channel byte may be anything (R97 f). -/
def wellFormed (c : Config) : Instr → Bool
  | .cmdPingChannel ch => frameOk c ch 0
  | .cmdFindFirst ch => frameOk c ch 0
  | .cmdFindNext ch => frameOk c ch 0
  | .cmdGetAddress ch => frameOk c ch 0
  | .cmdSetSearchOnlyAlarming ch => frameOk c ch 0
  | .cmdSetNoResetSearch ch => frameOk c ch 0
  | .cmdSetSearchAll ch => frameOk c ch 0
  | .cmdPutBit ch _ => frameOk c ch 1
  | .cmdGetByte ch => frameOk c ch 0
  | .cmdGetBlock ch _ => frameOk c ch 1
  | .cmdDataBlock ch block => frameOk c ch block.length
  | .cmdReset ch => frameOk c ch 0
  | .cmdPutByte ch _ => frameOk c ch 1
  | .cmdSetPowerNormal ch pay => frameOk c ch pay.length
  | .cmdTargetFamily ch _ => frameOk c ch 1
  | .cmdTargetAllFamilies ch => frameOk c ch 0
  | .cmdSearchRom ch _ => frameOk c ch 8
  | .cmdMatchRom ch _ => frameOk c ch 8
  | .selectPort sid _ => sessionOk c sid
  | .freePort sid _ => sessionOk c sid
  | .adapterDetected sid => sessionOk c sid
  | .findFirstDevice sid => sessionOk c sid
  | .findNextDevice sid => sessionOk c sid
  | .getAddress sid off => sessionOk c sid && regionOk c off 8
  | .isPresent sid _ => sessionOk c sid
  | .select sid _ => sessionOk c sid
  | .reset sid => sessionOk c sid
  | .putBit sid _ => sessionOk c sid
  | .getBit sid => sessionOk c sid
  | .putByte sid _ => sessionOk c sid
  | .getByte sid => sessionOk c sid
  | .getBlock sid _ => sessionOk c sid
  | .dataBlock sid off n => sessionOk c sid && regionOk c off n.toNat
  | .setSearchOnlyAlarmingDevices sid => sessionOk c sid
  | .setNoResetSearch sid => sessionOk c sid
  | .setSearchAllDevices sid => sessionOk c sid
  | .targetFamily sid _ => sessionOk c sid
  | .targetAllFamilies sid => sessionOk c sid
  | .beginExclusive sid _ => sessionOk c sid
  | .endExclusive sid => sessionOk c sid
  | .respSuccess _ pay => decide (pay.length ≤ 255)
  | .respFailure _ pay => decide (pay.length ≤ 255)
  | .respOther _ status pay =>
    decide (status ≠ c.stSuccess) && decide (status ≠ c.stFailure) && decide (pay.length ≤ 255)

end Sys2Proof
end

