-- ==== Sys2Proof/Machine/Operands.lean ====
section
/-! DEFINITION. Operand assembly: how an operand becomes payload bytes and how a payload becomes an operand
(30_encoding.md R87 to R89), and the shape tables of 41_wire_commands.md R130. -/

namespace Sys2Proof.Machine

/-- Boolean to payload byte (R87). -/
def bool8 (v : Bool) : Byte := if v then 0x01 else 0x00

/-- putBit's operand is bit 0 of `val8`; bits 7:1 are ignored (R90, R97 h). -/
def val8Bit (b : Byte) : Bool := b.getLsbD 0

/-- The eight bytes of an address in index order (R53). -/
def addrBytes (a : DevAddr) : List Byte := [a.b0, a.b1, a.b2, a.b3, a.b4, a.b5, a.b6, a.b7]

/-- The address whose bytes in index order are the given eight (R53). -/
def addrOfBytes : List Byte → Option DevAddr
  | [b0, b1, b2, b3, b4, b5, b6, b7] => some ⟨b0, b1, b2, b3, b4, b5, b6, b7⟩
  | _ => none

/-- The one byte of a payload that a rule writes `[b]` (R192, R194, R198, R199, R228). For a payload of another length,
which the default `RESP_LEN` table rules out, the spec states no result: a free value of draw `d` and channel `c`
(DESIGN CHOICE, log entry 16). -/
def soleByte (d c : Nat) : List Byte → Byte
  | [b] => b
  | _ => Config.freePayload d c

/-- Byte `i` of the address that GET_ADDRESS delivers: payload byte `i` (R23, R53). A payload shorter than eight bytes,
which only another `RESP_LEN` table than the default one allows, may have no such byte; no rule says what the address
byte then is: a free value of draw `d` and channel `c` (DESIGN CHOICE, log entry 16). -/
def fetchedByte (d c : Nat) (pay : List Byte) (i : Nat) : Byte := pay.getD i (Config.freeFetched d c i)

/-- The address that GET_ADDRESS's payload delivers (R228, R23, R53). Payload bytes past the eighth, which only another
`RESP_LEN` table allows, are no byte of it. -/
def fetchedAddr (d c : Nat) (pay : List Byte) : DevAddr :=
  ⟨fetchedByte d c pay 0, fetchedByte d c pay 1, fetchedByte d c pay 2, fetchedByte d c pay 3, fetchedByte d c pay 4,
    fetchedByte d c pay 5, fetchedByte d c pay 6, fetchedByte d c pay 7⟩

/-- `RESP_LEN(cmd, operands)` (R11, R130): GET_BLOCK's is its operand byte, DATA_BLOCK's the length of the block sent,
every other command's the configuration table's entry. -/
def respLenOf (c : Config) (cmd : WireCmd) (pay : List Byte) : Nat :=
  match cmd with
  | .getBlock => (pay.headD 0).toNat
  | .dataBlock => pay.length
  | .pingChannel => c.respLen.pingChannel.toNat
  | .findFirst => c.respLen.findFirst.toNat
  | .findNext => c.respLen.findNext.toNat
  | .getAddress => c.respLen.getAddress.toNat
  | .setSearchOnlyAlarming => c.respLen.setSearchOnlyAlarming.toNat
  | .setNoResetSearch => c.respLen.setNoResetSearch.toNat
  | .setSearchAll => c.respLen.setSearchAll.toNat
  | .putBit => c.respLen.putBit.toNat
  | .getByte => c.respLen.getByte.toNat
  | .reset => c.respLen.reset.toNat
  | .putByte => c.respLen.putByte.toNat
  | .setPowerNormal => c.respLen.setPowerNormal.toNat
  | .targetFamily => c.respLen.targetFamily.toNat
  | .targetAllFamilies => c.respLen.targetAllFamilies.toNat
  | .searchRom => c.respLen.searchRom.toNat
  | .matchRom => c.respLen.matchRom.toNat

/-- `SETTLE(cmd)` in milliseconds (R130, R12; log entry 28). -/
def settleMs (c : Config) (cmd : WireCmd) : Nat :=
  match c.settle.get cmd with
  | .probe => c.tSettleProbe
  | .block => c.tSettleBlock
  | .standard => c.tSettleDefault
  | .delay ms => ms

/-- The channel numbers `start .. MAX_CHANNELS-1`, ascending (R160). -/
def channelsFrom (c : Config) (start : Nat) : List Nat := List.range' start (c.maxChannels - start)

end Sys2Proof.Machine
end

