-- ==== Sys2Proof/Decode.lean ====
section
/-! DEFINITION. The frame codec as pure functions (40_frame_codec.md R110 to R113), the host operation codes of
30_encoding.md R91, and over them the decoder of the three raw forms and the encoder of an instruction. -/

namespace Sys2Proof

open Sys2Proof.Machine

/-- The operation select code (R91). -/
def HostOp.code : HostOp → BitVec 5
  | .selectPort => 0
  | .freePort => 1
  | .adapterDetected => 2
  | .findFirstDevice => 3
  | .findNextDevice => 4
  | .getAddress => 5
  | .isPresent => 6
  | .select => 7
  | .reset => 8
  | .putBit => 9
  | .getBit => 10
  | .putByte => 11
  | .getByte => 12
  | .getBlock => 13
  | .dataBlock => 14
  | .setSearchOnlyAlarmingDevices => 15
  | .setNoResetSearch => 16
  | .setSearchAllDevices => 17
  | .targetFamily => 18
  | .targetAllFamilies => 19
  | .beginExclusive => 20
  | .endExclusive => 21

/-- The operation of a select code; codes 22 to 31 are reserved (R91, R97 a). -/
def hostOpOfCode (op : BitVec 5) : Option HostOp := HostOp.all.find? (fun o => o.code == op)

/-- The wire command of a command byte, if any (R84). -/
def cmdOfByte (c : Config) (b : Byte) : Option WireCmd := WireCmd.all.find? (fun w => c.opc.get w == b)

/-- `EncodeRequest` (R110). -/
def encodeRequest (c : Config) (ch cmdbyte : Byte) (pay : List Byte) : List Byte :=
  c.marker :: ch :: cmdbyte :: byteOf pay.length :: pay

/-- What `DecodeRequest` answers (R111). -/
inductive RequestDecode where
  | short
  | badMarker
  | request (ch cmdbyte : Byte) (pay rest : List Byte)
  deriving DecidableEq, Repr

/-- `DecodeRequest` (R111). -/
def decodeRequest (c : Config) : List Byte → RequestDecode
  | m :: ch :: cmdbyte :: len :: tail =>
    if m ≠ c.marker then .badMarker
    else if tail.length < len.toNat then .short
    else .request ch cmdbyte (tail.take len.toNat) (tail.drop len.toNat)
  | _ => .short

/-- `EncodeResponse` (R112). -/
def encodeResponse (ch status : Byte) (pay : List Byte) : List Byte := ch :: status :: byteOf pay.length :: pay

/-- What `DecodeResponse` answers (R113). -/
inductive ResponseDecode where
  | shortHeader
  | shortPayload
  | response (ch status : Byte) (pay rest : List Byte)
  deriving DecidableEq, Repr

/-- `DecodeResponse` (R113). -/
def decodeResponse : List Byte → ResponseDecode
  | ch :: status :: len :: tail =>
    if tail.length < len.toNat then .shortPayload
    else .response ch status (tail.take len.toNat) (tail.drop len.toNat)
  | _ => .shortHeader

/-- A command whose request payload is empty. -/
def noPayload (pay : List Byte) (i : Instr) : Except DecodeError Instr :=
  match pay with
  | [] => .ok i
  | _ :: _ => .error .badLength

/-- A command whose request payload is one byte. -/
def onePayload (pay : List Byte) (f : Byte → Except DecodeError Instr) : Except DecodeError Instr :=
  match pay with
  | [b] => f b
  | _ => .error .badLength

/-- A command whose request payload is a device address. -/
def addrPayload (pay : List Byte) (f : DevAddr → Instr) : Except DecodeError Instr :=
  match addrOfBytes pay with
  | some a => .ok (f a)
  | none => .error .badLength

/-- PUT_BIT's payload byte (R87, R138). -/
def bitPayload (ch b : Byte) : Except DecodeError Instr :=
  if b = bool8 true then .ok (.cmdPutBit ch true)
  else if b = bool8 false then .ok (.cmdPutBit ch false)
  else .error .badBool

/-- A request frame's command, channel and payload as an instruction (`REQ_PAY` of R130, R131 to R148). -/
def decodeWire (cmd : WireCmd) (ch : Byte) (pay : List Byte) : Except DecodeError Instr :=
  match cmd with
  | .pingChannel => noPayload pay (.cmdPingChannel ch)
  | .findFirst => noPayload pay (.cmdFindFirst ch)
  | .findNext => noPayload pay (.cmdFindNext ch)
  | .getAddress => noPayload pay (.cmdGetAddress ch)
  | .setSearchOnlyAlarming => noPayload pay (.cmdSetSearchOnlyAlarming ch)
  | .setNoResetSearch => noPayload pay (.cmdSetNoResetSearch ch)
  | .setSearchAll => noPayload pay (.cmdSetSearchAll ch)
  | .putBit => onePayload pay (bitPayload ch)
  | .getByte => noPayload pay (.cmdGetByte ch)
  | .getBlock => onePayload pay (fun n => .ok (.cmdGetBlock ch n))
  | .dataBlock => .ok (.cmdDataBlock ch pay)
  | .reset => noPayload pay (.cmdReset ch)
  | .putByte => onePayload pay (fun v => .ok (.cmdPutByte ch v))
  | .setPowerNormal => .ok (.cmdSetPowerNormal ch pay)
  | .targetFamily => onePayload pay (fun v => .ok (.cmdTargetFamily ch v))
  | .targetAllFamilies => noPayload pay (.cmdTargetAllFamilies ch)
  | .searchRom => addrPayload pay (.cmdSearchRom ch)
  | .matchRom => addrPayload pay (.cmdMatchRom ch)

/-- A request frame as an instruction. Bytes after the frame are left alone (R82, R111). -/
def decodeRequestFrame (c : Config) (bytes : List Byte) : Except DecodeError Instr :=
  match decodeRequest c bytes with
  | .short => .error .short
  | .badMarker => .error .badMarker
  | .request ch cmdbyte pay _ =>
    match cmdOfByte c cmdbyte with
    | none => .error .unknownCommand
    | some cmd => decodeWire cmd ch pay

/-- A response frame as an instruction, by its status class (R86). -/
def decodeResponseFrame (c : Config) (bytes : List Byte) : Except DecodeError Instr :=
  match decodeResponse bytes with
  | .shortHeader => .error .short
  | .shortPayload => .error .short
  | .response ch status pay _ =>
    if status = c.stSuccess then .ok (.respSuccess ch pay)
    else if status = c.stFailure then .ok (.respFailure ch pay)
    else .ok (.respOther ch status pay)

/-- The instruction of a host operation with the operands R91 names; the other fields are ignored (R97 g). -/
def hostInstr (op : HostOp) (r : HostRequest) : Instr :=
  match op with
  | .selectPort => .selectPort r.sid r.port
  | .freePort => .freePort r.sid r.port
  | .adapterDetected => .adapterDetected r.sid
  | .findFirstDevice => .findFirstDevice r.sid
  | .findNextDevice => .findNextDevice r.sid
  | .getAddress => .getAddress r.sid r.off
  | .isPresent => .isPresent r.sid r.addr
  | .select => .select r.sid r.addr
  | .reset => .reset r.sid
  | .putBit => .putBit r.sid (val8Bit r.val8)
  | .getBit => .getBit r.sid
  | .putByte => .putByte r.sid r.val8
  | .getByte => .getByte r.sid
  | .getBlock => .getBlock r.sid r.val8
  | .dataBlock => .dataBlock r.sid r.off r.len8
  | .setSearchOnlyAlarmingDevices => .setSearchOnlyAlarmingDevices r.sid
  | .setNoResetSearch => .setNoResetSearch r.sid
  | .setSearchAllDevices => .setSearchAllDevices r.sid
  | .targetFamily => .targetFamily r.sid r.val8
  | .targetAllFamilies => .targetAllFamilies r.sid
  | .beginExclusive => .beginExclusive r.sid r.blocking
  | .endExclusive => .endExclusive r.sid

/-- A host port request as an instruction (R90, R91, R97 a). -/
def decodeHost (r : HostRequest) : Except DecodeError Instr :=
  match hostOpOfCode r.op with
  | none => .error .reservedOp
  | some op => .ok (hostInstr op r)

/-- The decoder: total, rejecting by name. Operand ranges are `wellFormed`'s business (R117). -/
def decode (c : Config) : Encoded → Except DecodeError Instr
  | .host r => decodeHost r
  | .request bytes => decodeRequestFrame c bytes
  | .response bytes => decodeResponseFrame c bytes

/-- A host request with every operand field zero. -/
def blankRequest (op : HostOp) (sid : Nat) : HostRequest :=
  { sid := sid, op := op.code, val8 := 0, len8 := 0, off := 0, addr := ⟨0, 0, 0, 0, 0, 0, 0, 0⟩, blocking := false,
    port := 0 }

/-- A wire command's request frame (R110 with `OPC` of R10). -/
def wireFrame (c : Config) (ch : Byte) (cmd : WireCmd) (pay : List Byte) : List Byte :=
  encodeRequest c ch (c.opc.get cmd) pay

/-- The encoder: the raw form of an instruction (R80, R81, R90, R91, R130). Unused host fields are zero. -/
def encode (c : Config) : Instr → Encoded
  | .cmdPingChannel ch => .request (wireFrame c ch .pingChannel [])
  | .cmdFindFirst ch => .request (wireFrame c ch .findFirst [])
  | .cmdFindNext ch => .request (wireFrame c ch .findNext [])
  | .cmdGetAddress ch => .request (wireFrame c ch .getAddress [])
  | .cmdSetSearchOnlyAlarming ch => .request (wireFrame c ch .setSearchOnlyAlarming [])
  | .cmdSetNoResetSearch ch => .request (wireFrame c ch .setNoResetSearch [])
  | .cmdSetSearchAll ch => .request (wireFrame c ch .setSearchAll [])
  | .cmdPutBit ch v => .request (wireFrame c ch .putBit [bool8 v])
  | .cmdGetByte ch => .request (wireFrame c ch .getByte [])
  | .cmdGetBlock ch n => .request (wireFrame c ch .getBlock [n])
  | .cmdDataBlock ch block => .request (wireFrame c ch .dataBlock block)
  | .cmdReset ch => .request (wireFrame c ch .reset [])
  | .cmdPutByte ch v => .request (wireFrame c ch .putByte [v])
  | .cmdSetPowerNormal ch pay => .request (wireFrame c ch .setPowerNormal pay)
  | .cmdTargetFamily ch family => .request (wireFrame c ch .targetFamily [family])
  | .cmdTargetAllFamilies ch => .request (wireFrame c ch .targetAllFamilies [])
  | .cmdSearchRom ch addr => .request (wireFrame c ch .searchRom (addrBytes addr))
  | .cmdMatchRom ch addr => .request (wireFrame c ch .matchRom (addrBytes addr))
  | .selectPort sid port => .host { blankRequest .selectPort sid with port := port }
  | .freePort sid port => .host { blankRequest .freePort sid with port := port }
  | .adapterDetected sid => .host (blankRequest .adapterDetected sid)
  | .findFirstDevice sid => .host (blankRequest .findFirstDevice sid)
  | .findNextDevice sid => .host (blankRequest .findNextDevice sid)
  | .getAddress sid off => .host { blankRequest .getAddress sid with off := off }
  | .isPresent sid addr => .host { blankRequest .isPresent sid with addr := addr }
  | .select sid addr => .host { blankRequest .select sid with addr := addr }
  | .reset sid => .host (blankRequest .reset sid)
  | .putBit sid v => .host { blankRequest .putBit sid with val8 := bool8 v }
  | .getBit sid => .host (blankRequest .getBit sid)
  | .putByte sid v => .host { blankRequest .putByte sid with val8 := v }
  | .getByte sid => .host (blankRequest .getByte sid)
  | .getBlock sid n => .host { blankRequest .getBlock sid with val8 := n }
  | .dataBlock sid off n => .host { blankRequest .dataBlock sid with off := off, len8 := n }
  | .setSearchOnlyAlarmingDevices sid => .host (blankRequest .setSearchOnlyAlarmingDevices sid)
  | .setNoResetSearch sid => .host (blankRequest .setNoResetSearch sid)
  | .setSearchAllDevices sid => .host (blankRequest .setSearchAllDevices sid)
  | .targetFamily sid family => .host { blankRequest .targetFamily sid with val8 := family }
  | .targetAllFamilies sid => .host (blankRequest .targetAllFamilies sid)
  | .beginExclusive sid blocking => .host { blankRequest .beginExclusive sid with blocking := blocking }
  | .endExclusive sid => .host (blankRequest .endExclusive sid)
  | .respSuccess ch pay => .response (encodeResponse ch c.stSuccess pay)
  | .respFailure ch pay => .response (encodeResponse ch c.stFailure pay)
  | .respOther ch status pay => .response (encodeResponse ch status pay)

/-- The first `k` bytes on the link of a table word whose most significant byte is sent first (R83). -/
def wordBytes (k w : Nat) : List Byte := (List.range k).map (fun j => byteOf (w / 256 ^ (k - 1 - j)))

/-- A word of spec/opcode_table.json as the raw form it packs (R83): 32 bits are a request header, 24 bits a response
header, each followed by payload bytes of zeros, and 8 bits (or the bare 5) are a host request whose `op` is bits 4:0
and whose other fields are zero. DESIGN CHOICE: the format is told by the width, see log entry 5. -/
def encodedOfWord (nbits w : Nat) : Encoded :=
  if nbits = 32 then .request (wordBytes 4 w ++ List.replicate (w % 256) 0)
  else if nbits = 24 then .response (wordBytes 3 w ++ List.replicate (w % 256) 0)
  else .host { blankRequest .selectPort 0 with op := BitVec.ofNat 5 w }

/-- The instruction the decoder reads from a table word, under the reference configuration (R83, `OPC_REF` of R10). -/
def decodeTableWord (nbits w : Nat) : Option Instr :=
  match decode Config.reference (encodedOfWord nbits w) with
  | .ok i => some i
  | .error _ => none

end Sys2Proof
end

