-- ==== Sys2Proof/Machine/State.lean ====
section
/-! DEFINITION. The state of the machine as plain data (10_state.md), the reasons a step can stop, and the state right
after reset (R37). What each field is, which rule names it and its reset value stand in INVENTORY.md under State. -/

namespace Sys2Proof.Machine

/-- Tag of the search state machine (R24, R220). -/
inductive SState where
  | idle | searching | found | exhausted
  deriving DecidableEq, Repr

/-- Arbiter state of a session: `A_IDLE` or `A_POLLING` (R27). -/
inductive AState where
  | idle | polling
  deriving DecidableEq, Repr

/-- Phases of the sequencer (R28). -/
inductive Phase where
  | idle | tx | flush | settle | rxh | rxp | check | commit
  deriving DecidableEq, Repr

/-- The exact test that failed (R261). -/
inductive Cause where
  | writeFail | shortHeader | shortPayload | lengthMismatch | channelMismatch | statusFailure | statusOther
  | connectFail
  deriving DecidableEq, Repr

/-- The error kinds at the host port (R260). -/
inductive ErrKind where
  | connection | communication | protocol | remoteFailure
  deriving DecidableEq, Repr

/-- Host result status (R94). -/
inductive HStatus where
  | ok | skipped | err
  deriving DecidableEq, Repr

/-- The result of an exchange or of routing it: `Ok(payload)`, `Skipped`, `Err(cause)` with `info` (R16, R120, R162). -/
inductive XRes where
  | ok (pay : List Byte)
  | skipped
  | err (cause : Cause) (info : BitVec 16)
  deriving DecidableEq, Repr

/-- The outcome field of a log record (R172, R263). -/
inductive LogOutcome where
  | ok
  | skipped
  | err (cause : Cause) (info : BitVec 16)
  deriving DecidableEq, Repr

/-- A record of the log sink (R172). -/
structure LogRec where
  sid : Nat
  op : HostOp
  ch : Nat
  cmd : WireCmd
  outcome : LogOutcome
  deriving DecidableEq, Repr

/-- The host result of one session (R93). The field `sid` of R93 is the session's index; `kind` and `cause` are `none`
for code 0. -/
structure HostResult where
  status : HStatus
  kind : Option ErrKind
  cause : Option Cause
  info : BitVec 16
  rbool : Bool
  rbyte : Byte
  rlen : Byte
  rdata : List Byte
  deriving DecidableEq, Repr

/-- The private state of a session (R25, R27, R277). -/
structure Session where
  holds : Bool
  astate : AState
  result : HostResult
  deriving DecidableEq, Repr

/-- One use of a boundary primitive of the transport, or a settling wait (R56 to R58, R63, R318): the model's own
record of what crossed the link, in order. -/
inductive LinkEvent where
  | write (frame : List Byte) (ok : Bool)
  | flush (ok : Bool)
  | wait (ms : Nat)
  | read (asked : Nat) (got : List Byte)
  deriving DecidableEq, Repr

/-- The transport at the core's boundary (R56 to R58): the receive stream (R32 a), the record of the boundary calls,
and what the environment has settled about its coming answers, oldest first. Where a list of answers is used up the
answer is a free value drawn with the counter `asks`. The exclusivity flag is `State.excl`. -/
structure Transport where
  rx : List Byte
  link : List LinkEvent
  writeAns : List Bool
  flushAns : List Bool
  arrivals : List (List Byte)
  connAns : List Bool
  asks : Nat
  deriving DecidableEq, Repr

/-- The sequencer's control state (R28) and frame buffers (R29), with the operands of the exchange in hand (`xch`,
`xcmd`, `xlen`) and the result of the last exchange (`xres`), which R120 passes from one phase to the next. What `curOp` and
`ci` hold outside an operation is log entry 29, what the frame buffers hold between exchanges log entry 30. -/
structure Sequencer where
  busy : Bool
  curOp : Instr
  ci : Nat
  phase : Phase
  txbuf : List Byte
  rxhdr : List Byte
  rxpay : List Byte
  xch : Byte
  xcmd : WireCmd
  xlen : Nat
  xres : XRes
  deriving DecidableEq, Repr

/-- What may happen next, in the order the schedule takes it (R65, R66, R248): a session's host request, a polling
session's attempt, the sequencer's own next step (it has one only while it is busy; log entry 4), bytes of the device
arriving unasked (R268), the transport's owner leaving other unread bytes in the receive stream (R171, R314), a caller's
own store to its buffer (R319), the reset input (R300). -/
inductive Event where
  | request (r : HostRequest)
  | attempt (sid : Nat)
  | sequencer
  | arrive (bytes : List Byte)
  | streamLeft (bytes : List Byte)
  | callerStore (addr : Nat) (b : Byte)
  | resetInput
  deriving DecidableEq, Repr

/-- The caller's buffer space (R50) as address and byte pairs, in the canonical form of `Memory.wf`. -/
abbrev Memory := List Host.Cell

/-- What an unlisted address of `BUF` reads as. The spec gives the caller's buffer no initial contents: DESIGN CHOICE
zero, unsafe, log entry 6. -/
def Memory.unlisted : Byte := 0x00

/-- The state of the core, its host port, its sessions, and the transport, log sink and buffer space around it. -/
structure State where
  cfg : Config
  ready : List Bool
  cursor : Nat
  lastAddr : DevAddr
  addrValid : Bool
  sstate : SState
  sessions : List Session
  excl : Bool
  seq : Sequencer
  hreq : HostRequest
  buf : Memory
  log : List LogRec
  tr : Transport
  agenda : List Event
  draws : Nat
  deriving DecidableEq, Repr

/-- Reasons the machine stops with a fault. -/
inductive Fault where
  /-- Raised when the caller's own store (not an operation of the core) names an address past the end of `BUF`, an
  address R50 says does not exist. Safe: the model stops where the spec gives nothing. -/
  | bufRange (addr : Nat)
  deriving DecidableEq, Repr

/-- Reasons the machine has no meaning for what it is asked. -/
inductive Refusal where
  /-- An instruction that has no meaning yet, refused in exec's own arm. Safe. No arm raises it. -/
  | notModelled (mnemonic : String)
  /-- Raised by SET_POWER_NORMAL: the core never sends it and nothing else is said of it (R144, U7). Safe. -/
  | neverSent
  /-- Raised by a step whose transmit or receive buffer holds no frame of the instruction set; the core itself never
  builds one (R97 c, R97 d). Safe. -/
  | badFrame (e : DecodeError)
  /-- Raised by a step from the inside of an exchange: the model runs an exchange as one step (R28 allows it), so no
  state it reaches rests there. Safe. -/
  | midExchange
  /-- Raised by the reset input while an operation runs or a session polls: reset is defined only from a quiescent core
  (R302, U15). Safe. -/
  | resetNotQuiescent
  deriving DecidableEq, Repr

/-- The result registers of a session after reset. The spec leaves them unspecified (R30, R37): DESIGN CHOICE zero, log
entry 7. -/
def HostResult.initial : HostResult :=
  { status := .ok, kind := none, cause := none, info := 0, rbool := false, rbyte := 0, rlen := 0,
    rdata := List.replicate 255 0 }

/-- A session after reset: holds nothing, polls nothing (R37). -/
def Session.initial : Session := { holds := false, astate := .idle, result := HostResult.initial }

/-- The sequencer after reset: `busy = 0`, `phase = PH_IDLE` (R37); its other registers are unspecified there: DESIGN
CHOICE zero, log entry 7. -/
def Sequencer.initial : Sequencer :=
  { busy := false, curOp := .selectPort 0 0, ci := 0, phase := .idle, txbuf := [], rxhdr := [], rxpay := [],
    xch := 0, xcmd := .pingChannel, xlen := 0, xres := .skipped }

/-- A transport nothing has happened on, of whose answers nothing is settled: every answer is a free value. -/
def Transport.fresh : Transport :=
  { rx := [], link := [], writeAns := [], flushAns := [], arrivals := [], connAns := [], asks := 0 }

/-- The state right after reset under a configuration (R37, R301). `lastAddr` and the host port's request registers are
unspecified there: DESIGN CHOICE zero, log entry 7. -/
def State.resetWith (c : Config) : State :=
  { cfg := c, ready := List.replicate c.maxChannels false, cursor := 0, lastAddr := ⟨0, 0, 0, 0, 0, 0, 0, 0⟩,
    addrValid := false, sstate := .idle, sessions := List.replicate c.nSessions Session.initial, excl := false,
    seq := Sequencer.initial, hreq := blankRequest .selectPort 0, buf := [], log := [], tr := Transport.fresh,
    agenda := [], draws := 0 }

/-- The machine right after reset, under the reference configuration. -/
def State.reset : State := State.resetWith Config.reference

end Sys2Proof.Machine
end

