-- ==== Sys2Proof/Machine/Flags.lean ====
section
/-! DEFINITION. The one-bit tests and the codes. The core has no condition codes (10_state.md R33); what it tests is the
status class of a response (30_encoding.md R86), flag and bit bytes (R88), and causes (60_exceptions.md R261, R262). -/

namespace Sys2Proof.Machine

/-- `FLAG_TRUE`, the test of a found or match flag (R88 b, R13). -/
def flagTrue (c : Config) (b : Byte) : Bool := b == c.flagByte

/-- getBit's test of its response byte (R88 a). -/
def bitTrue (b : Byte) : Bool := b != 0x00

/-- The three status classes (R86). -/
inductive StatusClass where
  | success | failure | other
  deriving DecidableEq, Repr

/-- The class of a status byte (R86). -/
def statusClass (c : Config) (status : Byte) : StatusClass :=
  if status = c.stFailure then .failure else if status = c.stSuccess then .success else .other

/-- `KindOf` (R261). -/
def kindOf : Cause → ErrKind
  | .writeFail => .communication
  | .shortHeader => .communication
  | .shortPayload => .communication
  | .lengthMismatch => .communication
  | .channelMismatch => .protocol
  | .statusFailure => .remoteFailure
  | .statusOther => .protocol
  | .connectFail => .connection

/-- The causes of a failed-communication downgrade (R121). -/
def downgrades : Cause → Bool
  | .writeFail => true
  | .shortHeader => true
  | .shortPayload => true
  | .lengthMismatch => true
  | .channelMismatch => false
  | .statusFailure => false
  | .statusOther => false
  | .connectFail => false

/-- The two bytes an error records (R263): high byte, low byte. -/
def infoOf (hi lo : Byte) : BitVec 16 := hi ++ lo

/-- The `status` code (R94). -/
def statusCode : HStatus → BitVec 2
  | .ok => 0
  | .skipped => 1
  | .err => 2

/-- The `kind` code; 0 is none (R262). -/
def kindCode : Option ErrKind → BitVec 3
  | none => 0
  | some .connection => 1
  | some .communication => 2
  | some .protocol => 3
  | some .remoteFailure => 4

/-- The `cause` code; 0 is none (R262). -/
def causeCode : Option Cause → BitVec 4
  | none => 0
  | some .writeFail => 1
  | some .shortHeader => 2
  | some .shortPayload => 3
  | some .lengthMismatch => 4
  | some .channelMismatch => 5
  | some .statusFailure => 6
  | some .statusOther => 7
  | some .connectFail => 8

/-- The `sstate` code (R24). -/
def sstateCode : SState → BitVec 2
  | .idle => 0
  | .searching => 1
  | .found => 2
  | .exhausted => 3

/-- The `astate` code (R27). -/
def astateCode : AState → BitVec 1
  | .idle => 0
  | .polling => 1

/-- What a log record keeps of an exchange's result (R172, R263). -/
def logOutcome : XRes → LogOutcome
  | .ok _ => .ok
  | .skipped => .skipped
  | .err cause info => .err cause info

end Sys2Proof.Machine
end

