-- ==== Sys2Proof/Machine/Ops.lean ====
section
/-! DEFINITION. The named operations over the state: registers, the buffer space, the transport's boundary primitives,
the exchange, the log, and the end of a host operation (a result or a raised error). -/

namespace Sys2Proof.Machine

/-! Register access. -/

/-- `ready[c]`; a number that names no channel is never ready (R21). -/
def State.readyAt (s : State) (c : Nat) : Bool := s.ready.getD c false
/-- `ready[c] <- b` (R21). -/
def State.setReady (s : State) (c : Nat) (b : Bool) : State := { s with ready := s.ready.set c b }
/-- `cursor <- c` (R22). -/
def State.setCursor (s : State) (c : Nat) : State := { s with cursor := c }
/-- `lastAddr <- a ; addrValid <- 1` (R23). -/
def State.setAddr (s : State) (a : DevAddr) : State := { s with lastAddr := a, addrValid := true }
/-- `addrValid <- 0` (R23). -/
def State.clearAddr (s : State) : State := { s with addrValid := false }
/-- `sstate <- t` (R24). -/
def State.setSState (s : State) (t : SState) : State := { s with sstate := t }
/-- The private state of a session (R277). -/
def State.session (s : State) (sid : Nat) : Session := s.sessions.getD sid Session.initial
/-- Change the private state of one session (R277). -/
def State.updSession (s : State) (sid : Nat) (f : Session → Session) : State :=
  { s with sessions := s.sessions.modify sid f }
/-- `T.excl <- b` (R26). -/
def State.setExcl (s : State) (b : Bool) : State := { s with excl := b }
/-- Change the sequencer's registers (R28, R29). -/
def State.setSeq (s : State) (q : Sequencer) : State := { s with seq := q }
/-- Load the request registers of the host port (R30); when this happens is log entry 27. -/
def State.setHreq (s : State) (r : HostRequest) : State := { s with hreq := r }
/-- Replace the contents of `BUF` (R50). -/
def State.setBuf (s : State) (m : Memory) : State := { s with buf := m }
/-- Append a record to the log sink (R31). -/
def State.addLog (s : State) (r : LogRec) : State := { s with log := s.log ++ [r] }
/-- Replace the transport's side of the boundary. -/
def State.setTr (s : State) (t : Transport) : State := { s with tr := t }
/-- What is left to happen. -/
def State.setAgenda (s : State) (a : List Event) : State := { s with agenda := a }
/-- Use up one draw of the free values. -/
def State.bumpDraws (s : State) : State := { s with draws := s.draws + 1 }

/-- `phase <- p` (R28). -/
def State.setPhase (s : State) (p : Phase) : State := s.setSeq { s.seq with phase := p }
/-- `ci <- c`: a loop's body starts on channel `c` (R28). Nothing else writes `ci`, so a loop that ends leaves its last
channel there: DESIGN CHOICE, log entry 29. -/
def State.setCi (s : State) (c : Nat) : State := s.setSeq { s.seq with ci := c }
/-- The exchange in hand and its frame, `phase = PH_TX` (R28, R29, R119). -/
def State.loadFrame (s : State) (ch : Byte) (cmd : WireCmd) (explen : Nat) (frame : List Byte) : State :=
  s.setSeq { s.seq with txbuf := frame, xch := ch, xcmd := cmd, xlen := explen, phase := .tx }
/-- The header bytes received (R29). -/
def State.setRxhdr (s : State) (bytes : List Byte) : State := s.setSeq { s.seq with rxhdr := bytes }
/-- The payload bytes received (R29). -/
def State.setRxpay (s : State) (bytes : List Byte) : State := s.setSeq { s.seq with rxpay := bytes }
/-- The exchange has its result, `phase = PH_COMMIT` (R28, R120). The frame buffers keep the bytes they hold: R29 says that
nothing of them survives the exchange and gives them no value after it, DESIGN CHOICE, log entry 30. -/
def State.endExchange (s : State) (r : XRes) : State := s.setSeq { s.seq with xres := r, phase := .commit }
/-- A host operation is accepted: `busy <- 1`, `cur_op` (R28). -/
def State.accept (s : State) (i : Instr) : State := s.setSeq { s.seq with busy := true, curOp := i }
/-- The sequencer is free again: `busy <- 0`, `phase <- PH_IDLE` (R28, R270). `cur_op` and `ci` keep the operation that has
ended and the last channel of its loop: no rule gives them a value outside a running operation (R28, R37), DESIGN CHOICE,
log entry 29. -/
def State.goIdle (s : State) : State := s.setSeq { s.seq with busy := false, phase := .idle }

/-- `Log(sid, op, ch, cmd, outcome)` (R172). -/
def State.logExchange (s : State) (sid : Nat) (op : HostOp) (c : Nat) (cmd : WireCmd) (r : XRes) : State :=
  s.addLog { sid := sid, op := op, ch := c, cmd := cmd, outcome := logOutcome r }

/-! The caller's buffer space (R50, R51). -/

/-- The byte at an address. -/
def Memory.read : Memory → Nat → Byte
  | [], _ => Memory.unlisted
  | (a, b) :: m, x => if a = x then b else Memory.read m x

/-- Store one byte, keeping the canonical form. -/
def Memory.write : Memory → Nat → Byte → Memory
  | [], x, v => if v = Memory.unlisted then [] else [(x, v)]
  | (a, b) :: m, x, v =>
    if a < x then (a, b) :: Memory.write m x v
    else if a = x then (if v = Memory.unlisted then m else (x, v) :: m)
    else (if v = Memory.unlisted then (a, b) :: m else (x, v) :: (a, b) :: m)

/-- Store a run of bytes. -/
def Memory.writeList : Memory → Nat → List Byte → Memory
  | m, _, [] => m
  | m, x, b :: bs => Memory.writeList (Memory.write m x b) (x + 1) bs

/-- Every address listed is above a bound and they rise. -/
def Memory.risingFrom : Nat → Memory → Bool
  | _, [] => true
  | lo, (a, _) :: m => decide (lo ≤ a) && Memory.risingFrom (a + 1) m

/-- The canonical form: addresses strictly rising, no entry equal to what an unlisted address reads as. -/
def Memory.wf (m : Memory) : Bool := Memory.risingFrom 0 m && m.all (fun cell => cell.2 != Memory.unlisted)

/-- `MemRead(addr, n)` (R51). -/
def memRead (s : State) (addr n : Nat) : List Byte := (List.range n).map (fun j => Memory.read s.buf (addr + j))

/-- `MemWrite(addr, |v|, v)` (R51). -/
def memWrite (s : State) (addr : Nat) (v : List Byte) : State := s.setBuf (Memory.writeList s.buf addr v)

/-! The transport's boundary primitives (R56 to R60). -/

/-- The environment's answer to a write (R56). -/
def Transport.takeWrite (t : Transport) : Bool × Transport :=
  match t.writeAns with
  | ok :: rest => (ok, { t with writeAns := rest })
  | [] => (Config.freeWrite t.asks, { t with asks := t.asks + 1 })

/-- The environment's answer to a flush (R57). -/
def Transport.takeFlush (t : Transport) : Bool × Transport :=
  match t.flushAns with
  | ok :: rest => (ok, { t with flushAns := rest })
  | [] => (Config.freeFlush t.asks, { t with asks := t.asks + 1 })

/-- What arrives before the timeout of a read (R58). -/
def Transport.takeArrival (t : Transport) : List Byte × Transport :=
  match t.arrivals with
  | bytes :: rest => (bytes, { t with arrivals := rest })
  | [] => (Config.freeArrival t.asks, { t with asks := t.asks + 1 })

/-- The connection code's verdict (R170). -/
def Transport.takeConnect (t : Transport) : Bool × Transport :=
  match t.connAns with
  | ok :: rest => (ok, { t with connAns := rest })
  | [] => (Config.freeConnect t.asks, { t with asks := t.asks + 1 })

/-- Keep a record of a boundary call. -/
def Transport.record (t : Transport) (e : LinkEvent) : Transport := { t with link := t.link ++ [e] }

/-- `TransportWrite` (R56). -/
def transportWrite (frame : List Byte) (s : State) : Bool × State :=
  let r := s.tr.takeWrite
  (r.1, s.setTr (r.2.record (.write frame r.1)))

/-- `TransportFlush` (R57). -/
def transportFlush (s : State) : Bool × State :=
  let r := s.tr.takeFlush
  (r.1, s.setTr (r.2.record (.flush r.1)))

/-- `TransportRead(n)` (R58): the first `n` bytes of what is unread and what arrives before the timeout, all of it when
there are fewer; what is returned is consumed, the rest stays. -/
def transportRead (n : Nat) (s : State) : List Byte × State :=
  let r := s.tr.takeArrival
  let avail := r.2.rx ++ r.1
  (avail.take n, s.setTr (({ r.2 with rx := avail.drop n } : Transport).record (.read n (avail.take n))))

/-- `TransportTryAcquire`, one indivisible test-and-set of `T.excl` (R59). -/
def transportTryAcquire (s : State) : Bool × State := if s.excl then (false, s) else (true, s.setExcl true)

/-- `TransportRelease` (R60). -/
def transportRelease (s : State) : State := s.setExcl false

/-- `Wait(SETTLE(cmd))` (R120, R330): no register changes; the model records that the wait stands here (R318). -/
def waitSettle (cmd : WireCmd) (s : State) : State :=
  (s.setPhase .settle).setTr (s.tr.record (.wait (settleMs s.cfg cmd)))

/-! The exchange (40_frame_codec.md). -/

/-- What reading a response gives (R114). -/
inductive ReadResult where
  | bad (cause : Cause) (info : BitVec 16)
  | response (ch status : Byte) (pay : List Byte)
  deriving DecidableEq, Repr

/-- The payload part of `ReadResponse` (R114): no read is issued for a length of 0. -/
def readPayload (ch status len : Byte) (s : State) : ReadResult × State :=
  if len = 0 then (.response ch status [], s.setRxpay [])
  else
    let r := transportRead len.toNat (s.setPhase .rxp)
    (if r.1.length < len.toNat then .bad .shortPayload (infoOf len (byteOf r.1.length))
     else .response ch status r.1,
     r.2.setRxpay r.1)

/-- `ReadResponse` (R114). -/
def readResponse (s : State) : ReadResult × State :=
  let r := transportRead 3 (s.setPhase .rxh)
  let s1 := r.2.setRxhdr r.1
  match r.1 with
  | [ch, status, len] => readPayload ch status len s1
  | hdr => (.bad .shortHeader (infoOf (byteOf hdr.length) 0), s1)

/-- `Validate(reqch, explen, resp)` (R115, R263, R266): channel, then status, then length. -/
def validate (c : Config) (reqch : Byte) (explen : Nat) (ch status : Byte) (pay : List Byte) : XRes :=
  if ch ≠ reqch then .err .channelMismatch (infoOf reqch ch)
  else match statusClass c status with
    | .failure => .err .statusFailure (infoOf status (byteOf pay.length))
    | .other => .err .statusOther (infoOf status (byteOf pay.length))
    | .success =>
      if pay.length ≠ explen then .err .lengthMismatch (infoOf (byteOf explen) (byteOf pay.length)) else .ok pay

/-- `SendRequest(ch, cmd, pay)` (R119): the whole frame in one write, then one flush; false is `WriteFail`. -/
def sendRequest (ch : Byte) (cmd : WireCmd) (pay : List Byte) (explen : Nat) (s : State) : Bool × State :=
  let frame := wireFrame s.cfg ch cmd pay
  let w := transportWrite frame (s.loadFrame ch cmd explen frame)
  if w.1 then transportFlush (w.2.setPhase .flush) else (false, w.2)

/-- `Exchange(ch, cmd, pay, explen)` (R120). -/
def exchange (ch : Byte) (cmd : WireCmd) (pay : List Byte) (explen : Nat) (s : State) : XRes × State :=
  let w := sendRequest ch cmd pay explen s
  if w.1 then
    let r := readResponse (waitSettle cmd w.2)
    match r.1 with
    | .bad cause info => (.err cause info, r.2.endExchange (.err cause info))
    | .response ch' status pay' =>
      let v := validate s.cfg ch explen ch' status pay'
      (v, (r.2.setPhase .check).endExchange v)
  else (.err .writeFail 0, w.2.endExchange (.err .writeFail 0))

/-- The failed-communication downgrade (R121, D20). -/
def downgradeOn (c : Nat) (r : XRes) (s : State) : State :=
  match r with
  | .err cause _ => if s.cfg.downgrade && downgrades cause then s.setReady c false else s
  | .ok _ => s
  | .skipped => s

/-- `ExchangeCh(c, cmd, pay, explen)` (R121). -/
def exchangeCh (c : Nat) (cmd : WireCmd) (pay : List Byte) (explen : Nat) (s : State) : XRes × State :=
  let r := exchange (byteOf c) cmd pay explen s
  (r.1, downgradeOn c r.1 r.2)

/-- `Route1(cmd, pay, explen)`, the CURRENT class (R162). -/
def route1 (cmd : WireCmd) (pay : List Byte) (explen : Nat) (s : State) : XRes × State :=
  if s.readyAt s.cursor then exchangeCh s.cursor cmd pay explen s else (.skipped, s)

/-! The end of a host operation (R93, R94, R270). -/

/-- What a host operation ends with. Every result field its constructor does not carry has no specified value. -/
inductive Verdict where
  | ok
  | okBool (b : Bool)
  | okByte (b : Byte)
  | okBlock (bytes : List Byte)
  | skipped
  | skippedBool
  | err (kind : ErrKind) (cause : Cause) (info : BitVec 16)
  deriving DecidableEq, Repr

/-- `raise KindOf(cause)(cause, info)` (R261, R270), the one error entry of the core. -/
def raise (cause : Cause) (info : BitVec 16) : Verdict := .err (kindOf cause) cause info

/-- A result with every field but `status`, `kind` and `cause` a free value (R93, U10), from draw `d`. -/
def freeResult (d : Nat) (status : HStatus) : HostResult :=
  { status := status, kind := none, cause := none, info := Config.freeInfo d, rbool := Config.freeBool d,
    rbyte := Config.freeByte d, rlen := Config.freeLen d, rdata := (List.range 255).map (Config.freeData d) }

/-- The host result of a verdict (R93, R94): the fields it names, the others free. -/
def resultOf (d : Nat) : Verdict → HostResult
  | .ok => freeResult d .ok
  | .okBool b => { freeResult d .ok with rbool := b }
  | .okByte b => { freeResult d .ok with rbyte := b }
  | .okBlock bytes =>
    { freeResult d .ok with
      rlen := byteOf bytes.length, rdata := bytes ++ (freeResult d .ok).rdata.drop bytes.length }
  | .skipped => freeResult d .skipped
  | .skippedBool => { freeResult d .skipped with rbool := false }
  | .err kind cause info => { freeResult d .err with kind := some kind, cause := some cause, info := info }

/-- Give a session its result (R93). -/
def deliver (sid : Nat) (v : Verdict) (s : State) : State :=
  (s.updSession sid (fun e => { e with result := resultOf s.draws v })).bumpDraws

/-- Run a routed host operation from acceptance to result (R28, R65, R96). A request with illegal operands is not
accepted and has no effect (R97 b); one that comes while the sequencer is busy waits (R96). -/
def runRouted (i : Instr) (sid : Nat) (body : State → Verdict × State) (s : State) :
    Host.Outcome State Fault Refusal :=
  if wellFormed s.cfg i && !s.seq.busy then
    let r := body (s.accept i)
    .next (deliver sid r.1 r.2).goIdle
  else .next s

/-- Run an arbiter operation: accepted at once, whether or not the sequencer is busy (R96, R240). -/
def runArbiter (i : Instr) (body : State → State) (s : State) : Host.Outcome State Fault Refusal :=
  if wellFormed s.cfg i then .next (body s) else .next s

/-- `Broadcast(sid, op, cmd, pay)` over the given channels (R163). -/
def broadcastOver (sid : Nat) (op : HostOp) (cmd : WireCmd) (pay : List Byte) : List Nat → State → State
  | [], s => s
  | c :: cs, s =>
    let s0 := s.setCi c
    if s0.readyAt c then
      let r := exchangeCh c cmd pay (respLenOf s.cfg cmd pay) s0
      broadcastOver sid op cmd pay cs (r.2.logExchange sid op c cmd r.1)
    else broadcastOver sid op cmd pay cs (s0.logExchange sid op c cmd .skipped)

/-- `Broadcast(sid, op, cmd, pay)`, the BROADCAST class (R163, R174). -/
def broadcast (sid : Nat) (op : HostOp) (cmd : WireCmd) (pay : List Byte) (s : State) : Verdict × State :=
  (.ok, broadcastOver sid op cmd pay (channelsFrom s.cfg 0) s)

/-- The loop of `Probe` over the given channels (R164); `any` is whether one has answered so far. -/
def probeOver (sid : Nat) (op : HostOp) : List Nat → Bool → State → Bool × State
  | [], any, s => (any, s)
  | c :: cs, any, s =>
    let r := exchange (byteOf c) .pingChannel [] (respLenOf s.cfg .pingChannel []) ((s.setCi c).setReady c false)
    match r.1 with
    | .ok _ => probeOver sid op cs true ((r.2.setReady c true).logExchange sid op c .pingChannel r.1)
    | .skipped => probeOver sid op cs any (r.2.logExchange sid op c .pingChannel r.1)
    | .err _ _ => probeOver sid op cs any (r.2.logExchange sid op c .pingChannel r.1)

/-- `cursor <- 0 ; addrValid <- 0 ; sstate <- Idle` (R164, R171). -/
def invalidateSearch (s : State) : State := ((s.setCursor 0).clearAddr).setSState .idle

/-- `Probe(sid, op)` (R164). -/
def probe (sid : Nat) (op : HostOp) (s : State) : Bool × State :=
  probeOver sid op (channelsFrom s.cfg 0) false (invalidateSearch s)

/-- The core at rest with no session polling, the only state reset is defined from (R302). -/
def quiescent (s : State) : Bool :=
  !s.seq.busy && decide (s.seq.phase = .idle) && s.sessions.all (fun e => decide (e.astate = .idle))

/-- The reset input (R300, R301): every register of the core, `T.excl` and the log at their values after reset; the
configuration, `BUF`, the transport's streams and what is yet to happen are not the core's to reset (R37, R302). -/
def resetCore (s : State) : State :=
  { State.resetWith s.cfg with buf := s.buf, tr := s.tr, agenda := s.agenda, draws := s.draws }

end Sys2Proof.Machine
end

