-- ==== Sys2Proof/Machine/Arbiter.lean ====
section
/-! DEFINITION. The exclusive-access arbiter of 45_arbiter.md: beginExclusive, one attempt of a polling session, and
endExclusive. -/

namespace Sys2Proof.Machine

/-- `holds[s] <- 1 ; astate[s] <- A_IDLE` (R242). -/
def grantToken (sid : Nat) (s : State) : State := s.updSession sid (fun e => { e with holds := true, astate := .idle })

/-- `astate[s] <- A_POLLING` (R242). -/
def startPolling (sid : Nat) (s : State) : State := s.updSession sid (fun e => { e with astate := .polling })

/-- `holds[s] <- 0` (R243). -/
def dropToken (sid : Nat) (s : State) : State := s.updSession sid (fun e => { e with holds := false })

/-- One pass of the acquire loop (R242): each pass is one step of the machine (R248). -/
def acquirePass (sid : Nat) (blocking : Bool) (s : State) : State :=
  let r := transportTryAcquire s
  if r.1 then deliver sid (.okBool true) (grantToken sid r.2)
  else if blocking then startPolling sid r.2
  else deliver sid (.okBool false) r.2

/-- beginExclusive up to its result or to its first failed attempt (R242, R247). -/
def beginExclusive (sid : Nat) (blocking : Bool) (s : State) : State :=
  if (s.session sid).holds then deliver sid (.okBool true) s else acquirePass sid blocking s

/-- beginExclusive (R242). -/
def execBeginExclusive (sid : Nat) (blocking : Bool) (s : State) : Host.Outcome State Fault Refusal :=
  runArbiter (.beginExclusive sid blocking) (beginExclusive sid blocking) s

/-- One attempt of a session in `A_POLLING` (R248); a session that polls nothing has no attempt to make. -/
def pollAttempt (sid : Nat) (s : State) : State :=
  if (s.session sid).astate = .polling then acquirePass sid true s else s

/-- endExclusive's body (R243). -/
def endExclusive (sid : Nat) (s : State) : State :=
  deliver sid .ok (if (s.session sid).holds then dropToken sid (transportRelease s) else s)

/-- endExclusive (R243). -/
def execEndExclusive (sid : Nat) (s : State) : Host.Outcome State Fault Refusal :=
  runArbiter (.endExclusive sid) (endExclusive sid) s

end Sys2Proof.Machine
end

