-- ==== Sys2Proof/Machine/Router.lean ====
section
/-! DEFINITION. The host operations of 42_router_registry.md: selectPort, freePort, adapterDetected and the five filter
broadcasts. -/

namespace Sys2Proof.Machine

/-- What selectPort does with the connection code's verdict (R170): no register changes. What the connection code leaves
in the receive stream is not said (R171, R72): DESIGN CHOICE, the operation itself keeps the unread bytes, and what the
connection code makes of them is an event of its own, `Event.streamLeft` (log entry 26). -/
def connectPort (s : State) : Verdict × State :=
  let r := s.tr.takeConnect
  (if r.1 then .ok else raise .connectFail 0, s.setTr r.2)

/-- selectPort (R170). -/
def execSelectPort (sid port : Nat) (s : State) : Host.Outcome State Fault Refusal :=
  runRouted (.selectPort sid port) sid connectPort s

/-- freePort (R171). Afterwards the transport is whatever the connection code left: DESIGN CHOICE, the operation itself
keeps the unread bytes of the receive stream, and what the connection code makes of them is an event of its own,
`Event.streamLeft` (log entry 26). -/
def execFreePort (sid port : Nat) (s : State) : Host.Outcome State Fault Refusal :=
  runRouted (.freePort sid port) sid (fun t => (.ok, invalidateSearch t)) s

/-- adapterDetected (R165). -/
def execAdapterDetected (sid : Nat) (s : State) : Host.Outcome State Fault Refusal :=
  runRouted (.adapterDetected sid) sid
    (fun t => let r := probe sid .adapterDetected t; (.okBool r.1, r.2)) s

/-- setSearchOnlyAlarmingDevices (R166). -/
def execSetSearchOnlyAlarmingDevices (sid : Nat) (s : State) : Host.Outcome State Fault Refusal :=
  runRouted (.setSearchOnlyAlarmingDevices sid) sid
    (broadcast sid .setSearchOnlyAlarmingDevices .setSearchOnlyAlarming []) s

/-- setNoResetSearch (R167). -/
def execSetNoResetSearch (sid : Nat) (s : State) : Host.Outcome State Fault Refusal :=
  runRouted (.setNoResetSearch sid) sid (broadcast sid .setNoResetSearch .setNoResetSearch []) s

/-- setSearchAllDevices (R168, 90_conflicts.md C4). -/
def execSetSearchAllDevices (sid : Nat) (s : State) : Host.Outcome State Fault Refusal :=
  runRouted (.setSearchAllDevices sid) sid (broadcast sid .setSearchAllDevices .setSearchAll []) s

/-- targetFamily (R169): the family code is sent as it is. -/
def execTargetFamily (sid : Nat) (family : Byte) (s : State) : Host.Outcome State Fault Refusal :=
  runRouted (.targetFamily sid family) sid (broadcast sid .targetFamily .targetFamily [family]) s

/-- targetAllFamilies (R173). -/
def execTargetAllFamilies (sid : Nat) (s : State) : Host.Outcome State Fault Refusal :=
  runRouted (.targetAllFamilies sid) sid (broadcast sid .targetAllFamilies .targetAllFamilies []) s

end Sys2Proof.Machine
end

