-- ==== Sys2Proof/Machine/Search.lean ====
section
/-! DEFINITION. The device-search state machine of 44_device_search.md: `FindOn`, `ScanFrom`, and the host operations
findFirstDevice, findNextDevice and getAddress. -/

namespace Sys2Proof.Machine

/-- The second half of `FindOn` (R228): fetch the address after a found flag. Lengths are RESP_LEN's, 8 by default (R11,
D10). -/
def fetchAddr (sid : Nat) (op : HostOp) (c : Nat) (s : State) : Bool × State :=
  let a := exchangeCh c .getAddress [] (respLenOf s.cfg .getAddress []) s
  match a.1 with
  | .ok pay => (true, a.2.setAddr (fetchedAddr s.draws c pay))
  | .skipped => (false, a.2)
  | .err _ _ => (false, a.2.logExchange sid op c .getAddress a.1)

/-- `FindOn(sid, op, c, cmd)` (R228). The flag's length is RESP_LEN's, 1 by default (R11, D10). -/
def findOn (sid : Nat) (op : HostOp) (c : Nat) (cmd : WireCmd) (s : State) : Bool × State :=
  let r := exchangeCh c cmd [] (respLenOf s.cfg cmd []) s
  match r.1 with
  | .ok pay => if flagTrue s.cfg (soleByte s.draws c pay) then fetchAddr sid op c r.2 else (false, r.2)
  | .skipped => (false, r.2)
  | .err _ _ => (false, r.2.logExchange sid op c cmd r.1)

/-- `ScanFrom` over the given channels (R222). -/
def scanOver (sid : Nat) (op : HostOp) : List Nat → State → Bool × State
  | [], s => (false, (s.setSState .exhausted).setCursor 0)
  | c :: cs, s =>
    let s0 := ((s.setSState .searching).setCursor c).setCi c
    if s0.readyAt c then
      let r := findOn sid op c .findFirst s0
      if r.1 then (true, r.2.setSState .found) else scanOver sid op cs r.2
    else scanOver sid op cs s0

/-- `ScanFrom(sid, op, start)` (R222). -/
def scanFrom (sid : Nat) (op : HostOp) (start : Nat) (s : State) : Bool × State :=
  scanOver sid op (channelsFrom s.cfg start) s

/-- findFirstDevice's body (R223): the probe's own result is ignored. -/
def findFirst (sid : Nat) (s : State) : Verdict × State :=
  let r := scanFrom sid .findFirstDevice 0 (probe sid .findFirstDevice s).2
  (.okBool r.1, r.2)

/-- findFirstDevice (R223). -/
def execFindFirstDevice (sid : Nat) (s : State) : Host.Outcome State Fault Refusal :=
  runRouted (.findFirstDevice sid) sid (findFirst sid) s

/-- findNextDevice's fallback, the scan from the channel after the cursor's (R224, 90_conflicts.md C13). -/
def findNextFallback (sid c : Nat) (s : State) : Verdict × State :=
  let r := scanFrom sid .findNextDevice (c + 1) s
  (.okBool r.1, r.2)

/-- findNextDevice's body (R224, R226). -/
def findNext (sid : Nat) (s : State) : Verdict × State :=
  let s0 := s.setSState .searching
  if s0.readyAt s.cursor then
    let r := findOn sid .findNextDevice s.cursor .findNext s0
    if r.1 then (.okBool true, r.2.setSState .found) else findNextFallback sid s.cursor r.2
  else findNextFallback sid s.cursor s0

/-- findNextDevice (R224). -/
def execFindNextDevice (sid : Nat) (s : State) : Host.Outcome State Fault Refusal :=
  runRouted (.findNextDevice sid) sid (findNext sid) s

/-- The eight bytes a read of `lastAddr` gives (R23, U3): a draw while `addrValid = 0`. -/
def lastAddrBytes (s : State) : List Byte :=
  if s.addrValid then addrBytes s.lastAddr else (List.range 8).map (Config.freeAddr s.draws)

/-- getAddress (R225). -/
def execGetAddress (sid off : Nat) (s : State) : Host.Outcome State Fault Refusal :=
  runRouted (.getAddress sid off) sid (fun t => (.ok, memWrite t off (lastAddrBytes t))) s

end Sys2Proof.Machine
end

