-- ==== Sys2Proof/Machine/Transfer.lean ====
section
/-! DEFINITION. The host operations of 43_transfer_engine.md: putBit, getBit, putByte, getByte, getBlock, dataBlock,
reset, isPresent and select. -/

namespace Sys2Proof.Machine

/-- The three outcomes of `Route1` as a verdict (R190). -/
def transferVerdict (onOk : List Byte → Verdict) (onSkip : Verdict) : XRes → Verdict
  | .ok pay => onOk pay
  | .skipped => onSkip
  | .err cause info => raise cause info

/-- A single-channel transfer that ends as R190 says. -/
def transfer (cmd : WireCmd) (pay : List Byte) (explen : Nat) (onOk : List Byte → Verdict) (onSkip : Verdict)
    (s : State) : Verdict × State :=
  let r := route1 cmd pay explen s
  (transferVerdict onOk onSkip r.1, r.2)

/-- putBit (R191); the response byte is ignored. -/
def execPutBit (sid : Nat) (v : Bool) (s : State) : Host.Outcome State Fault Refusal :=
  runRouted (.putBit sid v) sid
    (fun t => transfer .putBit [bool8 v] (respLenOf t.cfg .putBit [bool8 v]) (fun _ => .ok) .skipped t) s

/-- getBit (R192), carried by PUT_BIT with payload `[0x01]` (90_conflicts.md C3); the length is RESP_LEN's, 1 by default
(R11, D10). -/
def execGetBit (sid : Nat) (s : State) : Host.Outcome State Fault Refusal :=
  runRouted (.getBit sid) sid
    (fun t => transfer .putBit [0x01] (respLenOf t.cfg .putBit [0x01])
      (fun pay => .okBool (bitTrue (soleByte t.draws t.cursor pay))) .skippedBool t) s

/-- putByte (R193). -/
def execPutByte (sid : Nat) (v : Byte) (s : State) : Host.Outcome State Fault Refusal :=
  runRouted (.putByte sid v) sid
    (fun t => transfer .putByte [v] (respLenOf t.cfg .putByte [v]) (fun _ => .ok) .skipped t) s

/-- getByte (R194); the length is RESP_LEN's, 1 by default (R11, D10). -/
def execGetByte (sid : Nat) (s : State) : Host.Outcome State Fault Refusal :=
  runRouted (.getByte sid) sid
    (fun t => transfer .getByte [] (respLenOf t.cfg .getByte [])
      (fun pay => .okByte (soleByte t.draws t.cursor pay)) .skipped t) s

/-- getBlock (R195). -/
def execGetBlock (sid : Nat) (n : Byte) (s : State) : Host.Outcome State Fault Refusal :=
  runRouted (.getBlock sid n) sid (transfer .getBlock [n] n.toNat (fun pay => .okBlock pay) .skipped) s

/-- dataBlock's body (R196): the region is read before the request and written only after a valid response. -/
def moveBlock (off n : Nat) (s : State) : Verdict × State :=
  let r := route1 .dataBlock (memRead s off n) n s
  match r.1 with
  | .ok pay => (.ok, memWrite r.2 off pay)
  | .skipped => (.skipped, r.2)
  | .err cause info => (raise cause info, r.2)

/-- dataBlock (R196). -/
def execDataBlock (sid off : Nat) (n : Byte) (s : State) : Host.Outcome State Fault Refusal :=
  runRouted (.dataBlock sid off n) sid (moveBlock off n.toNat) s

/-- reset's verdict (R197, 90_conflicts.md C7): every cause is reported with kind CommunicationError. -/
def resetVerdict : XRes → Verdict
  | .ok _ => .okByte 1
  | .skipped => .skipped
  | .err cause info => .err .communication cause info

/-- reset, the bus reset primitive (R197); it resets no register of the core (R300). -/
def execReset (sid : Nat) (s : State) : Host.Outcome State Fault Refusal :=
  runRouted (.reset sid) sid
    (fun t => let r := route1 .reset [] (respLenOf t.cfg .reset []) t; (resetVerdict r.1, r.2)) s

/-- isPresent's loop over the given channels (R198, R200). The cursor is 0 on every exit (D25). -/
def presentOver (sid : Nat) (addr : DevAddr) : List Nat → State → Verdict × State
  | [], s => (.okBool false, s.setCursor 0)
  | c :: cs, s =>
    let s0 := s.setCi c
    if s0.readyAt c then
      let r := exchangeCh c .searchRom (addrBytes addr) (respLenOf s.cfg .searchRom (addrBytes addr)) s0
      match r.1 with
      | .ok pay =>
        if flagTrue s.cfg (soleByte s.draws c pay) then (.okBool true, r.2.setCursor 0) else presentOver sid addr cs r.2
      | .skipped => presentOver sid addr cs r.2
      | .err cause info =>
        match s.cfg.presencePolicy with
        | .raise => (raise cause info, r.2.setCursor 0)
        | .asNotFound =>
          presentOver sid addr cs ((r.2.setCursor 0).logExchange sid .isPresent c .searchRom r.1)
    else presentOver sid addr cs s0

/-- isPresent (R198). -/
def execIsPresent (sid : Nat) (addr : DevAddr) (s : State) : Host.Outcome State Fault Refusal :=
  runRouted (.isPresent sid addr) sid (fun t => presentOver sid addr (channelsFrom t.cfg 0) t) s

/-- select's body (R199, R200). -/
def selectDevice (sid : Nat) (addr : DevAddr) (s : State) : Verdict × State :=
  let r := route1 .matchRom (addrBytes addr) (respLenOf s.cfg .matchRom (addrBytes addr)) s
  match r.1 with
  | .ok pay => (.okBool (soleByte s.draws s.cursor pay == 0x01), r.2)
  | .skipped => (.skippedBool, r.2)
  | .err cause info =>
    match s.cfg.presencePolicy with
    | .raise => (raise cause info, r.2)
    | .asNotFound => (.okBool false, r.2.logExchange sid .select s.cursor .matchRom r.1)

/-- select (R199). -/
def execSelect (sid : Nat) (addr : DevAddr) (s : State) : Host.Outcome State Fault Refusal :=
  runRouted (.select sid addr) sid (selectDevice sid addr) s

end Sys2Proof.Machine
end

