-- ==== Sys2Proof/Machine/Wire.lean ====
section
/-! DEFINITION. The 18 wire commands of 41_wire_commands.md, each one exchange on the channel its frame names, and the
three response classes of 40_frame_codec.md R115, each the check of a response that has been read. -/

namespace Sys2Proof.Machine

/-- One wire command: the frame is sent only to a channel that is ready (R161), and the exchange's result stands in
`xres` (R120, R121). An instruction with illegal operands is sent nowhere (R80, R89). -/
def runWire (i : Instr) (ch : Byte) (cmd : WireCmd) (pay : List Byte) (s : State) :
    Host.Outcome State Fault Refusal :=
  if wellFormed s.cfg i && s.readyAt ch.toNat then
    .next (exchangeCh ch.toNat cmd pay (respLenOf s.cfg cmd pay) s).2.goIdle
  else .next (s.endExchange .skipped).goIdle

/-- PING_CHANNEL (R131): sent whether or not the channel is ready, and no downgrade follows (R121, R161). -/
def execCmdPingChannel (ch : Byte) (s : State) : Host.Outcome State Fault Refusal :=
  if wellFormed s.cfg (.cmdPingChannel ch) then
    .next (exchange ch .pingChannel [] (respLenOf s.cfg .pingChannel []) s).2.goIdle
  else .next (s.endExchange .skipped).goIdle

/-- FIND_FIRST (R132). -/
def execCmdFindFirst (ch : Byte) (s : State) : Host.Outcome State Fault Refusal :=
  runWire (.cmdFindFirst ch) ch .findFirst [] s

/-- FIND_NEXT (R133). -/
def execCmdFindNext (ch : Byte) (s : State) : Host.Outcome State Fault Refusal :=
  runWire (.cmdFindNext ch) ch .findNext [] s

/-- GET_ADDRESS (R134). -/
def execCmdGetAddress (ch : Byte) (s : State) : Host.Outcome State Fault Refusal :=
  runWire (.cmdGetAddress ch) ch .getAddress [] s

/-- SET_SEARCH_ONLY_ALARMING (R135). -/
def execCmdSetSearchOnlyAlarming (ch : Byte) (s : State) : Host.Outcome State Fault Refusal :=
  runWire (.cmdSetSearchOnlyAlarming ch) ch .setSearchOnlyAlarming [] s

/-- SET_NO_RESET_SEARCH (R136). -/
def execCmdSetNoResetSearch (ch : Byte) (s : State) : Host.Outcome State Fault Refusal :=
  runWire (.cmdSetNoResetSearch ch) ch .setNoResetSearch [] s

/-- SET_SEARCH_ALL (R137). -/
def execCmdSetSearchAll (ch : Byte) (s : State) : Host.Outcome State Fault Refusal :=
  runWire (.cmdSetSearchAll ch) ch .setSearchAll [] s

/-- PUT_BIT (R138). -/
def execCmdPutBit (ch : Byte) (v : Bool) (s : State) : Host.Outcome State Fault Refusal :=
  runWire (.cmdPutBit ch v) ch .putBit [bool8 v] s

/-- GET_BYTE (R139). -/
def execCmdGetByte (ch : Byte) (s : State) : Host.Outcome State Fault Refusal :=
  runWire (.cmdGetByte ch) ch .getByte [] s

/-- GET_BLOCK (R140). -/
def execCmdGetBlock (ch : Byte) (n : Byte) (s : State) : Host.Outcome State Fault Refusal :=
  runWire (.cmdGetBlock ch n) ch .getBlock [n] s

/-- DATA_BLOCK (R141). -/
def execCmdDataBlock (ch : Byte) (block : List Byte) (s : State) : Host.Outcome State Fault Refusal :=
  runWire (.cmdDataBlock ch block) ch .dataBlock block s

/-- RESET (R142). -/
def execCmdReset (ch : Byte) (s : State) : Host.Outcome State Fault Refusal :=
  runWire (.cmdReset ch) ch .reset [] s

/-- PUT_BYTE (R143). -/
def execCmdPutByte (ch : Byte) (v : Byte) (s : State) : Host.Outcome State Fault Refusal :=
  runWire (.cmdPutByte ch v) ch .putByte [v] s

/-- SET_POWER_NORMAL (R144): the command has a command byte and nothing else; the core never sends it, and a model has
no transition that sends one (93_implementation_defined.md U7). -/
def execCmdSetPowerNormal (_ch : Byte) (_pay : List Byte) (_s : State) : Host.Outcome State Fault Refusal :=
  .refused .neverSent

/-- TARGET_FAMILY (R145). -/
def execCmdTargetFamily (ch : Byte) (family : Byte) (s : State) : Host.Outcome State Fault Refusal :=
  runWire (.cmdTargetFamily ch family) ch .targetFamily [family] s

/-- TARGET_ALL_FAMILIES (R146). -/
def execCmdTargetAllFamilies (ch : Byte) (s : State) : Host.Outcome State Fault Refusal :=
  runWire (.cmdTargetAllFamilies ch) ch .targetAllFamilies [] s

/-- SEARCH_ROM (R147). -/
def execCmdSearchRom (ch : Byte) (addr : DevAddr) (s : State) : Host.Outcome State Fault Refusal :=
  runWire (.cmdSearchRom ch addr) ch .searchRom (addrBytes addr) s

/-- MATCH_ROM (R148). -/
def execCmdMatchRom (ch : Byte) (addr : DevAddr) (s : State) : Host.Outcome State Fault Refusal :=
  runWire (.cmdMatchRom ch addr) ch .matchRom (addrBytes addr) s

/-- `PH_CHECK` for a response that has been read, against the exchange in hand (R115): its result stands in `xres`, and
a failed communication downgrades the channel, except for the probe's ping (R121). -/
def checkResponse (ch status : Byte) (pay : List Byte) (s : State) : Host.Outcome State Fault Refusal :=
  let v := validate s.cfg s.seq.xch s.seq.xlen ch status pay
  let t := s.endExchange v
  .next (if s.seq.xcmd = .pingChannel then t else downgradeOn s.seq.xch.toNat v t).goIdle

/-- A response of class SUCCESS (R86, R115). -/
def execRespSuccess (ch : Byte) (pay : List Byte) (s : State) : Host.Outcome State Fault Refusal :=
  checkResponse ch s.cfg.stSuccess pay s

/-- A response of class FAILURE (R86, R115). -/
def execRespFailure (ch : Byte) (pay : List Byte) (s : State) : Host.Outcome State Fault Refusal :=
  checkResponse ch s.cfg.stFailure pay s

/-- A response of class OTHER (R86, R115). -/
def execRespOther (ch status : Byte) (pay : List Byte) (s : State) : Host.Outcome State Fault Refusal :=
  checkResponse ch status pay s

end Sys2Proof.Machine
end

