-- ==== Sys2Proof/Machine/Dispatch.lean ====
section
/-! DEFINITION. The meaning of every instruction, one arm for each constructor. -/

namespace Sys2Proof.Machine

def exec (i : Instr) (s : State) : Host.Outcome State Fault Refusal :=
  match i with
  | .cmdPingChannel ch => Sys2Proof.Machine.execCmdPingChannel ch s
  | .cmdFindFirst ch => Sys2Proof.Machine.execCmdFindFirst ch s
  | .cmdFindNext ch => Sys2Proof.Machine.execCmdFindNext ch s
  | .cmdGetAddress ch => Sys2Proof.Machine.execCmdGetAddress ch s
  | .cmdSetSearchOnlyAlarming ch => Sys2Proof.Machine.execCmdSetSearchOnlyAlarming ch s
  | .cmdSetNoResetSearch ch => Sys2Proof.Machine.execCmdSetNoResetSearch ch s
  | .cmdSetSearchAll ch => Sys2Proof.Machine.execCmdSetSearchAll ch s
  | .cmdPutBit ch v => Sys2Proof.Machine.execCmdPutBit ch v s
  | .cmdGetByte ch => Sys2Proof.Machine.execCmdGetByte ch s
  | .cmdGetBlock ch n => Sys2Proof.Machine.execCmdGetBlock ch n s
  | .cmdDataBlock ch block => Sys2Proof.Machine.execCmdDataBlock ch block s
  | .cmdReset ch => Sys2Proof.Machine.execCmdReset ch s
  | .cmdPutByte ch v => Sys2Proof.Machine.execCmdPutByte ch v s
  | .cmdSetPowerNormal ch pay => Sys2Proof.Machine.execCmdSetPowerNormal ch pay s
  | .cmdTargetFamily ch family => Sys2Proof.Machine.execCmdTargetFamily ch family s
  | .cmdTargetAllFamilies ch => Sys2Proof.Machine.execCmdTargetAllFamilies ch s
  | .cmdSearchRom ch addr => Sys2Proof.Machine.execCmdSearchRom ch addr s
  | .cmdMatchRom ch addr => Sys2Proof.Machine.execCmdMatchRom ch addr s
  | .selectPort sid port => Sys2Proof.Machine.execSelectPort sid port s
  | .freePort sid port => Sys2Proof.Machine.execFreePort sid port s
  | .adapterDetected sid => Sys2Proof.Machine.execAdapterDetected sid s
  | .findFirstDevice sid => Sys2Proof.Machine.execFindFirstDevice sid s
  | .findNextDevice sid => Sys2Proof.Machine.execFindNextDevice sid s
  | .getAddress sid off => Sys2Proof.Machine.execGetAddress sid off s
  | .isPresent sid addr => Sys2Proof.Machine.execIsPresent sid addr s
  | .select sid addr => Sys2Proof.Machine.execSelect sid addr s
  | .reset sid => Sys2Proof.Machine.execReset sid s
  | .putBit sid v => Sys2Proof.Machine.execPutBit sid v s
  | .getBit sid => Sys2Proof.Machine.execGetBit sid s
  | .putByte sid v => Sys2Proof.Machine.execPutByte sid v s
  | .getByte sid => Sys2Proof.Machine.execGetByte sid s
  | .getBlock sid n => Sys2Proof.Machine.execGetBlock sid n s
  | .dataBlock sid off n => Sys2Proof.Machine.execDataBlock sid off n s
  | .setSearchOnlyAlarmingDevices sid => Sys2Proof.Machine.execSetSearchOnlyAlarmingDevices sid s
  | .setNoResetSearch sid => Sys2Proof.Machine.execSetNoResetSearch sid s
  | .setSearchAllDevices sid => Sys2Proof.Machine.execSetSearchAllDevices sid s
  | .targetFamily sid family => Sys2Proof.Machine.execTargetFamily sid family s
  | .targetAllFamilies sid => Sys2Proof.Machine.execTargetAllFamilies sid s
  | .beginExclusive sid blocking => Sys2Proof.Machine.execBeginExclusive sid blocking s
  | .endExclusive sid => Sys2Proof.Machine.execEndExclusive sid s
  | .respSuccess ch pay => Sys2Proof.Machine.execRespSuccess ch pay s
  | .respFailure ch pay => Sys2Proof.Machine.execRespFailure ch pay s
  | .respOther ch status pay => Sys2Proof.Machine.execRespOther ch status pay s

end Sys2Proof.Machine
end

