-- ==== Sys2Proof/Machine/Fetch.lean ====
section
/-! DEFINITION. What a step takes next (10_state.md R28, 20_memory.md R66): the next event, or the frame the sequencer is
about to send or the response it is about to check; and what the events other than a host request do. -/

namespace Sys2Proof.Machine

/-- Whether an operation is the arbiter's, not the sequencer's (R96, R240). -/
def isArbiterOp : Instr → Bool
  | .beginExclusive _ _ => true
  | .endExclusive _ => true
  | _ => false

/-- The operation of the arbiter that a request asks for, if it is a legal one and its session has nothing outstanding:
what is accepted at once, whether or not the sequencer is busy (R96, T-H10). -/
def arbiterAsked (r : HostRequest) (s : State) : Option Instr :=
  match decodeHost r with
  | .ok i =>
    if isArbiterOp i && wellFormed s.cfg i && decide ((s.session r.sid).astate = .idle) then some i else none
  | .error _ => none

/-- The raw instruction in the sequencer's buffers: in `PH_TX` the frame in `txbuf`, in `PH_CHECK` the response in `rxhdr`
and `rxpay`. -/
def frameWord (s : State) : Option Encoded :=
  match s.seq.phase with
  | .tx => some (.request s.seq.txbuf)
  | .check => some (.response (s.seq.rxhdr ++ s.seq.rxpay))
  | .idle => none
  | .flush => none
  | .settle => none
  | .rxh => none
  | .rxp => none
  | .commit => none

/-- The raw instruction that stands where the next step takes it: the host request at the head of what is to happen, if
the arbiter takes it at once or the sequencer is in `PH_IDLE`; while the sequencer is busy and nothing else is to happen
first, its own frame. -/
def fetchWord (s : State) : Option Encoded :=
  match s.agenda with
  | [] => frameWord s
  | .request r :: _ => if (arbiterAsked r s).isSome || decide (s.seq.phase = .idle) then some (.host r) else frameWord s
  | .sequencer :: _ => frameWord s
  | .attempt _ :: _ => none
  | .arrive _ :: _ => none
  | .streamLeft _ :: _ => none
  | .callerStore _ _ :: _ => none
  | .resetInput :: _ => none

/-- A host request is accepted: it leaves the agenda, and the host port's request registers take its fields (R30, R96).
When they take them is not said, as the port's signalling is not specified (R96): DESIGN CHOICE, on acceptance and not
while the request waits, and they hold them until the next request is accepted (log entry 27). -/
def issue (r : HostRequest) (rest : List Event) (s : State) : State := (s.setAgenda rest).setHreq r

/-- The device sends bytes unasked; they stay in the receive stream until a read takes them (R32, R268, R314). -/
def arriveBytes (bytes : List Byte) (s : State) : State := s.setTr { s.tr with rx := s.tr.rx ++ bytes }

/-- The transport's owner, which is not the core, leaves these bytes as what is unread in the receive stream: none if it
drains the stream, anything if it closes or opens the transport (R72, R171, R314; DESIGN CHOICE, log entry 26). -/
def leaveStream (bytes : List Byte) (s : State) : State := s.setTr { s.tr with rx := bytes }

/-- A caller stores a byte to its own buffer (R50, R319). -/
def callerStore (addr : Nat) (b : Byte) (s : State) : Host.Outcome State Fault Refusal :=
  if addr < 2 ^ s.cfg.bufAw then .next (memWrite s addr [b]) else .fault (.bufRange addr)

/-- The reset input (R300, R302). -/
def resetInput (s : State) : Host.Outcome State Fault Refusal :=
  if quiescent s then .next (resetCore s) else .refused .resetNotQuiescent

/-- A frame in the sequencer's buffers, as the instruction it decodes to. -/
def serveFrame (e : Encoded) (s : State) : Host.Outcome State Fault Refusal :=
  match decode s.cfg e with
  | .ok i => exec i s
  | .error err => .refused (.badFrame err)

/-- The sequencer's own step: in `PH_TX` the frame in `txbuf`, in `PH_CHECK` the response in `rxhdr` and `rxpay`. In
`PH_IDLE` it has none, and the core waits (R301). -/
def sequencerStep (s : State) : Host.Outcome State Fault Refusal :=
  match s.seq.phase with
  | .idle => .next s
  | .tx => serveFrame (.request s.seq.txbuf) s
  | .check => serveFrame (.response (s.seq.rxhdr ++ s.seq.rxpay)) s
  | .flush => .refused .midExchange
  | .settle => .refused .midExchange
  | .rxh => .refused .midExchange
  | .rxp => .refused .midExchange
  | .commit => .refused .midExchange

/-- A host request taken in `PH_IDLE`. A session that polls has an operation outstanding and can issue nothing else, so
what it does next is its attempt (R27, R96); a request that is no legal one is dropped with no effect (R97); a routed
operation waits while the sequencer is busy (R96). -/
def takeRequest (r : HostRequest) (rest : List Event) (s : State) : Host.Outcome State Fault Refusal :=
  if (s.session r.sid).astate = .polling then .next (pollAttempt r.sid s)
  else match decodeHost r with
    | .error _ => .next (s.setAgenda rest)
    | .ok i =>
      if !wellFormed s.cfg i then .next (s.setAgenda rest)
      else if s.seq.busy then .next s
      else exec i (issue r rest s)

/-- A host request at the head of the agenda: the arbiter takes its own at once, whether or not the sequencer is busy
(R96, R240); every other one waits, unless the sequencer is in `PH_IDLE`, while the sequencer goes on (R96). -/
def serveRequest (r : HostRequest) (rest : List Event) (s : State) : Host.Outcome State Fault Refusal :=
  match arbiterAsked r s with
  | some i => exec i (issue r rest s)
  | none => if s.seq.phase = .idle then takeRequest r rest s else sequencerStep s

/-- One step of the machine: the event at the head of the agenda (R66). With none there, the step is the sequencer's. -/
def stepBody (s : State) : Host.Outcome State Fault Refusal :=
  match s.agenda with
  | [] => sequencerStep s
  | .request r :: rest => serveRequest r rest s
  | .attempt sid :: rest => .next (pollAttempt sid (s.setAgenda rest))
  | .sequencer :: rest => sequencerStep (s.setAgenda rest)
  | .arrive bytes :: rest => .next (arriveBytes bytes (s.setAgenda rest))
  | .streamLeft bytes :: rest => .next (leaveStream bytes (s.setAgenda rest))
  | .callerStore addr b :: rest => callerStore addr b (s.setAgenda rest)
  | .resetInput :: rest => resetInput (s.setAgenda rest)

/-- Put a raw instruction where the next step takes it, and set what that takes: the phase, `busy`, that the step is the
sequencer's, and for a host request that its session is not polling. -/
def placeWord (e : Encoded) (s : State) : State :=
  match e with
  | .host r =>
    ((s.setAgenda (.request r :: s.agenda)).goIdle).updSession r.sid (fun p => { p with astate := .idle })
  | .request bytes =>
    (s.setAgenda (.sequencer :: s.agenda)).setSeq { s.seq with phase := .tx, busy := true, txbuf := bytes }
  | .response bytes =>
    (s.setAgenda (.sequencer :: s.agenda)).setSeq
      { s.seq with phase := .check, busy := true, rxhdr := bytes.take 3, rxpay := bytes.drop 3 }

end Sys2Proof.Machine
end

