-- ==== Sys2Proof/Machine/Step.lean ====
section
/-! DEFINITION. The machine's one step, and the placing of a table word where it takes its next instruction. -/

namespace Sys2Proof.Machine

/-- One step of the machine (R66). -/
def step (s : State) : Host.Outcome State Fault Refusal := stepBody s

/-- The state with the instruction of a table word where the next step takes it. -/
def State.withFetchWord (s : State) (nbits w : Nat) : State := placeWord (encodedOfWord nbits w) s

end Sys2Proof.Machine
end

