-- ==== Sys2Proof/Safety.lean ====
section
/-! DEFINITION. What claims about the machine are stated in: the invariants of 10_state.md R36, the end of a run
(70_reset_and_hazards.md R335), what a device answers, what crossed the link, and what an operation leaves alone. -/

namespace Sys2Proof.Machine

/-- The invariants that hold whenever no routed operation is running (R36), with the sizes and the memory's canonical
form they stand on. -/
structure Inv (s : State) : Prop where
  /-- The configuration is a legal one (R7, R8, R10, R14). -/
  cfgWf : s.cfg.Wf
  /-- `BUF` is in canonical form. -/
  bufWf : Memory.wf s.buf = true
  /-- `BUF` lists only addresses of the space (R50). -/
  bufIn : ∀ cell ∈ s.buf, cell.1 < 2 ^ s.cfg.bufAw
  /-- One ready flag for each channel (R21). -/
  readyLen : s.ready.length = s.cfg.maxChannels
  /-- One private state for each session (R25, R27). -/
  sessionsLen : s.sessions.length = s.cfg.nSessions
  /-- (I-a). -/
  cursorIn : s.cursor < s.cfg.maxChannels
  /-- (I-b). -/
  oneHolder : ∀ a b, (s.session a).holds = true → (s.session b).holds = true → a = b
  /-- (I-c). -/
  holderExcl : ∀ a, (s.session a).holds = true → s.excl = true
  /-- (I-d). -/
  notSearching : s.sstate ≠ .searching
  /-- (I-e). -/
  foundValid : s.sstate = .found → s.addrValid = true
  /-- (I-f). -/
  pollerHoldsNot : ∀ a, (s.session a).astate = .polling → (s.session a).holds = false
  /-- The sequencer is busy exactly while it is not in `PH_IDLE` (R28). -/
  busyPhase : s.seq.busy = false ↔ s.seq.phase = .idle

/-- Whether an event is a host operation that a session has still to be served. -/
def isRequest : Event → Bool
  | .request _ => true
  | .attempt _ => false
  | .sequencer => false
  | .arrive _ => false
  | .streamLeft _ => false
  | .callerStore _ _ => false
  | .resetInput => false

/-- The end of a run (R335): every session has the result of its last host operation, so none is left on the agenda, the
sequencer is idle, and no session polls. What the device, the stream, the token holders and the other agents may still
do is not asked. -/
def runOver (s : State) : Bool := !s.agenda.any isRequest && quiescent s

/-- While the sequencer is busy, the next step is its own, taken with the agenda `a`: nothing else is to happen, or the
schedule names it, or a request that the arbiter does not take at once stands at the head (R96; log entry 4). -/
def SequencersTurn (s : State) (a : List Event) : Prop :=
  (s.agenda = [] ∧ a = []) ∨ s.agenda = .sequencer :: a ∨
    ∃ r rest, s.agenda = .request r :: rest ∧ arbiterAsked r s = none ∧ a = s.agenda

/-! The environment's side (R56 to R58). -/

/-- The next write and flush succeed, and `bytes` are the first bytes of the receive stream by the next read. -/
abbrev Answers (s : State) (bytes : List Byte) : Prop :=
  s.tr.writeAns.head? = some true ∧ s.tr.flushAns.head? = some true ∧ s.tr.arrivals ≠ [] ∧
    bytes <+: s.tr.rx ++ s.tr.arrivals.headD []

/-- The next two writes and flushes succeed, and `bytes` are the first bytes of the receive stream by the next read. -/
abbrev AnswersTwice (s : State) (bytes : List Byte) : Prop :=
  s.tr.writeAns.take 2 = [true, true] ∧ s.tr.flushAns.take 2 = [true, true] ∧ s.tr.arrivals ≠ [] ∧
    bytes <+: s.tr.rx ++ s.tr.arrivals.headD []

/-- The next `k` writes and flushes succeed, and `bytes` are the first bytes of the receive stream by the next read. -/
abbrev AnswersInTurn (s : State) (k : Nat) (bytes : List Byte) : Prop :=
  s.tr.writeAns.take k = List.replicate k true ∧ s.tr.flushAns.take k = List.replicate k true ∧ s.tr.arrivals ≠ [] ∧
    bytes <+: s.tr.rx ++ s.tr.arrivals.headD []

/-- The next write and flush succeed, and no byte arrives before the next read times out. -/
abbrev StaysSilent (s : State) : Prop :=
  s.tr.writeAns.head? = some true ∧ s.tr.flushAns.head? = some true ∧ s.tr.rx = [] ∧ s.tr.arrivals.head? = some []

/-- The next write fails. -/
abbrev WriteWillFail (s : State) : Prop := s.tr.writeAns.head? = some false

/-- The state after the exchanges of `cmd` with those channels below a bound that `asked` picks, in ascending order, as far
as a further exchange can see it (R163, R164). -/
def afterAsking (asked : Nat → Bool) (cmd : WireCmd) (pay : List Byte) (n : Nat) (s : State) : Nat → State
  | 0 => s
  | c + 1 =>
    if asked c then (exchange (byteOf c) cmd pay n (afterAsking asked cmd pay n s c)).2
    else afterAsking asked cmd pay n s c

/-- What the exchange with channel `c` gives then. -/
abbrev answerOf (asked : Nat → Bool) (cmd : WireCmd) (pay : List Byte) (n : Nat) (s : State) (c : Nat) : XRes :=
  (exchange (byteOf c) cmd pay n (afterAsking asked cmd pay n s c)).1

/-- The state after the probe's pings of the channels below `c`, as far as an exchange can see it (R164). -/
abbrev afterPings (s : State) (c : Nat) : State :=
  afterAsking (fun _ => true) .pingChannel [] s.cfg.respLen.pingChannel.toNat s c

/-- The state after the whole probe, as far as the transport and the ready table go (R164): a channel is ready exactly if
the exchange of its own ping gave a payload. -/
def afterProbe (s : State) : State :=
  { afterPings s s.cfg.maxChannels with
    ready := (List.range s.cfg.maxChannels).map (fun c =>
      logOutcome (exchange (byteOf c) .pingChannel [] s.cfg.respLen.pingChannel.toNat (afterPings s c)).1 == .ok) }

/-- The search asks channel `c` with `cmd`, gets nothing and leaves `u` (R228): the answer is another flag, or the exchange
fails, or the flag byte came and the exchange that fetches the address fails. `sent` are the frames sent, `recs` the records
logged. -/
def FindMissed (s u : State) (sid : Nat) (op : HostOp) (c : Nat) (cmd : WireCmd) (sent : List (List Byte))
    (recs : List LogRec) : Prop :=
  (∃ f, exchangeCh c cmd [] (s.cfg.respLen.get cmd).toNat s = (.ok [f], u) ∧ f ≠ s.cfg.flagByte ∧
    sent = [[s.cfg.marker, byteOf c, s.cfg.opc.get cmd, 0]] ∧ recs = []) ∨
  (∃ cause info, exchangeCh c cmd [] (s.cfg.respLen.get cmd).toNat s = (.err cause info, u) ∧
    sent = [[s.cfg.marker, byteOf c, s.cfg.opc.get cmd, 0]] ∧ recs = [⟨sid, op, c, cmd, .err cause info⟩]) ∨
  (∃ v cause info, exchangeCh c cmd [] (s.cfg.respLen.get cmd).toNat s = (.ok [s.cfg.flagByte], v) ∧
    exchangeCh c .getAddress [] s.cfg.respLen.getAddress.toNat v = (.err cause info, u) ∧
    sent = [[s.cfg.marker, byteOf c, s.cfg.opc.get cmd, 0], [s.cfg.marker, byteOf c, s.cfg.opc.getAddress, 0]] ∧
    recs = [⟨sid, op, c, .getAddress, .err cause info⟩])

/-- The search asks channel `c` with `cmd`, gets the flag byte and then the address `reply`, and leaves `u` (R228). -/
def FindHit (s u : State) (c : Nat) (cmd : WireCmd) (reply : List Byte) : Prop :=
  ∃ v, exchangeCh c cmd [] (s.cfg.respLen.get cmd).toNat s = (.ok [s.cfg.flagByte], v) ∧
    exchangeCh c .getAddress [] s.cfg.respLen.getAddress.toNat v = (.ok reply, u)

/-- findNextDevice gets nothing from the cursor's channel, and leaves `u` (R224): the channel is not ready and nothing is
sent, or FIND_NEXT goes there and gets nothing. -/
def FindNextMissed (s u : State) (sid : Nat) (sent : List (List Byte)) (recs : List LogRec) : Prop :=
  (s.readyAt s.cursor = false ∧ u = s ∧ sent = [] ∧ recs = []) ∨
  (s.readyAt s.cursor = true ∧ FindMissed s u sid .findNextDevice s.cursor .findNext sent recs)

/-- A scan of the given channels gets nothing on any of them, and leaves `u` (R222): those that are not ready are passed
by, each of the others is asked with FIND_FIRST, in order. `sent` are the frames sent, `recs` the records logged. -/
inductive ScanMissed (sid : Nat) (op : HostOp) :
    State → List Nat → State → List (List Byte) → List LogRec → Prop where
  | nil (s : State) : ScanMissed sid op s [] s [] []
  | skip {s u : State} {c : Nat} {cs : List Nat} {sent : List (List Byte)} {recs : List LogRec}
      (hr : s.readyAt c = false) (h : ScanMissed sid op s cs u sent recs) : ScanMissed sid op s (c :: cs) u sent recs
  | miss {s v u : State} {c : Nat} {cs : List Nat} {sent sent' : List (List Byte)} {recs recs' : List LogRec}
      (hr : s.readyAt c = true) (hm : FindMissed s v sid op c .findFirst sent recs)
      (h : ScanMissed sid op v cs u sent' recs') : ScanMissed sid op s (c :: cs) u (sent ++ sent') (recs ++ recs')

/-- The seven causes an exchange can fail with, each with its kind (R120, R261). -/
def exchangeCauses : List (Cause × ErrKind) :=
  [(.writeFail, .communication), (.shortHeader, .communication), (.shortPayload, .communication),
   (.lengthMismatch, .communication), (.channelMismatch, .protocol), (.statusFailure, .remoteFailure),
   (.statusOther, .protocol)]

/-! What crossed the link. -/

/-- The boundary calls made between two states of one run. -/
def newEvents (s t : State) : List LinkEvent := t.tr.link.drop s.tr.link.length

/-- The frames handed to the transmit stream, in order. -/
def writtenFrames : List LinkEvent → List (List Byte)
  | [] => []
  | .write frame _ :: es => frame :: writtenFrames es
  | .flush _ :: es => writtenFrames es
  | .wait _ :: es => writtenFrames es
  | .read _ _ :: es => writtenFrames es

/-- The bytes taken from the receive stream, in order. -/
def readBytes : List LinkEvent → List Byte
  | [] => []
  | .read _ got :: es => got ++ readBytes es
  | .write _ _ :: es => readBytes es
  | .flush _ :: es => readBytes es
  | .wait _ :: es => readBytes es

/-- The frames sent between two states of one run. -/
def framesSent (s t : State) : List (List Byte) := writtenFrames (newEvents s t)

/-! What an operation leaves alone. -/

/-- A host operation of a session that exists, while the sequencer is free (R92, R96). -/
abbrev Accepted (s : State) (i : Instr) (sid : Nat) : Prop :=
  wellFormed s.cfg i = true ∧ s.seq.busy = false ∧ sid < s.sessions.length

/-- The search registers are unchanged. -/
abbrev SameSearch (s t : State) : Prop :=
  t.cursor = s.cursor ∧ t.lastAddr = s.lastAddr ∧ t.addrValid = s.addrValid ∧ t.sstate = s.sstate

/-- Every byte of `BUF` reads as before. -/
abbrev SameMemory (s t : State) : Prop := ∀ a, Memory.read t.buf a = Memory.read s.buf a

/-- The token of every session, its polling and the transport's flag are unchanged. -/
abbrev SameTokens (s t : State) : Prop :=
  t.excl = s.excl ∧
    ∀ x, (t.session x).holds = (s.session x).holds ∧ (t.session x).astate = (s.session x).astate

/-- The result of every other session is unchanged. -/
abbrev SameOthers (sid : Nat) (s t : State) : Prop := ∀ x, x ≠ sid → t.session x = s.session x

/-- The configuration, the host port's request registers and what is yet to happen are unchanged. -/
abbrev SamePort (s t : State) : Prop := t.cfg = s.cfg ∧ t.hreq = s.hreq ∧ t.agenda = s.agenda

/-- The sequencer is free. -/
abbrev Idle (t : State) : Prop := t.seq.busy = false ∧ t.seq.phase = .idle

/-- A transfer that succeeds leaves everything but its own result and the sequencer's buffers as it was. -/
abbrev TransferKept (sid : Nat) (s t : State) : Prop :=
  t.ready = s.ready ∧ t.log = s.log ∧ SameSearch s t ∧ SameTokens s t ∧ SameOthers sid s t ∧ SamePort s t ∧ Idle t

/-- A wire command or a response leaves everything but the ready table and the sequencer's buffers as it was. -/
abbrev WireKept (s t : State) : Prop :=
  t.log = s.log ∧ SameSearch s t ∧ SameMemory s t ∧ t.excl = s.excl ∧ t.sessions = s.sessions ∧ SamePort s t ∧
    t.draws = s.draws ∧ Idle t

/-- The result of a session is `OK` and names no error. -/
abbrev ResultOk (t : State) (sid : Nat) : Prop :=
  (t.session sid).result.status = .ok ∧ (t.session sid).result.kind = none ∧ (t.session sid).result.cause = none

/-- The result of a session is `SKIPPED` and names no error. -/
abbrev ResultSkipped (t : State) (sid : Nat) : Prop :=
  (t.session sid).result.status = .skipped ∧ (t.session sid).result.kind = none ∧
    (t.session sid).result.cause = none

/-- The result of a session is `ERR` with the given kind, cause and info. -/
abbrev ResultErr (t : State) (sid : Nat) (kind : ErrKind) (cause : Cause) (info : BitVec 16) : Prop :=
  (t.session sid).result.status = .err ∧ (t.session sid).result.kind = some kind ∧
    (t.session sid).result.cause = some cause ∧ (t.session sid).result.info = info

/-- The host operation of an instruction, if it is one (R91). -/
def hostOpOf : Instr → Option HostOp
  | .selectPort _ _ => some .selectPort
  | .freePort _ _ => some .freePort
  | .adapterDetected _ => some .adapterDetected
  | .findFirstDevice _ => some .findFirstDevice
  | .findNextDevice _ => some .findNextDevice
  | .getAddress _ _ => some .getAddress
  | .isPresent _ _ => some .isPresent
  | .select _ _ => some .select
  | .reset _ => some .reset
  | .putBit _ _ => some .putBit
  | .getBit _ => some .getBit
  | .putByte _ _ => some .putByte
  | .getByte _ => some .getByte
  | .getBlock _ _ => some .getBlock
  | .dataBlock _ _ _ => some .dataBlock
  | .setSearchOnlyAlarmingDevices _ => some .setSearchOnlyAlarmingDevices
  | .setNoResetSearch _ => some .setNoResetSearch
  | .setSearchAllDevices _ => some .setSearchAllDevices
  | .targetFamily _ _ => some .targetFamily
  | .targetAllFamilies _ => some .targetAllFamilies
  | .beginExclusive _ _ => some .beginExclusive
  | .endExclusive _ => some .endExclusive
  | .cmdPingChannel _ => none
  | .cmdFindFirst _ => none
  | .cmdFindNext _ => none
  | .cmdGetAddress _ => none
  | .cmdSetSearchOnlyAlarming _ => none
  | .cmdSetNoResetSearch _ => none
  | .cmdSetSearchAll _ => none
  | .cmdPutBit _ _ => none
  | .cmdGetByte _ => none
  | .cmdGetBlock _ _ => none
  | .cmdDataBlock _ _ => none
  | .cmdReset _ => none
  | .cmdPutByte _ _ => none
  | .cmdSetPowerNormal _ _ => none
  | .cmdTargetFamily _ _ => none
  | .cmdTargetAllFamilies _ => none
  | .cmdSearchRom _ _ => none
  | .cmdMatchRom _ _ => none
  | .respSuccess _ _ => none
  | .respFailure _ _ => none
  | .respOther _ _ _ => none

/-- The session a host operation answers to (R92). -/
def sessionOf : Instr → Option Nat
  | .selectPort sid _ => some sid
  | .freePort sid _ => some sid
  | .adapterDetected sid => some sid
  | .findFirstDevice sid => some sid
  | .findNextDevice sid => some sid
  | .getAddress sid _ => some sid
  | .isPresent sid _ => some sid
  | .select sid _ => some sid
  | .reset sid => some sid
  | .putBit sid _ => some sid
  | .getBit sid => some sid
  | .putByte sid _ => some sid
  | .getByte sid => some sid
  | .getBlock sid _ => some sid
  | .dataBlock sid _ _ => some sid
  | .setSearchOnlyAlarmingDevices sid => some sid
  | .setNoResetSearch sid => some sid
  | .setSearchAllDevices sid => some sid
  | .targetFamily sid _ => some sid
  | .targetAllFamilies sid => some sid
  | .beginExclusive sid _ => some sid
  | .endExclusive sid => some sid
  | .cmdPingChannel _ => none
  | .cmdFindFirst _ => none
  | .cmdFindNext _ => none
  | .cmdGetAddress _ => none
  | .cmdSetSearchOnlyAlarming _ => none
  | .cmdSetNoResetSearch _ => none
  | .cmdSetSearchAll _ => none
  | .cmdPutBit _ _ => none
  | .cmdGetByte _ => none
  | .cmdGetBlock _ _ => none
  | .cmdDataBlock _ _ => none
  | .cmdReset _ => none
  | .cmdPutByte _ _ => none
  | .cmdSetPowerNormal _ _ => none
  | .cmdTargetFamily _ _ => none
  | .cmdTargetAllFamilies _ => none
  | .cmdSearchRom _ _ => none
  | .cmdMatchRom _ _ => none
  | .respSuccess _ _ => none
  | .respFailure _ _ => none
  | .respOther _ _ _ => none

/-- The state with every exclusivity token and the transport's flag put away: what a machine without the arbiter
would hold. -/
def forgetTokens (s : State) : State :=
  { s with excl := false, sessions := s.sessions.map (fun e => { e with holds := false }) }

end Sys2Proof.Machine
end

