-- ==== Sys2Proof/Certificates/Slice0/Obligations.lean ====
section
/-! DEFINITION. The statements for the provers. Each says what the machine does, for every state, configuration and
environment; the words it uses stand in Sys2Proof/Safety.lean. That a host operation is one step is log entry 3; that
what is yet to happen, the environment's coming answers and the record of the link are fields of the state is log
entries 4, 8 and 18. -/

section

open Sys2Proof Sys2Proof.Machine

/-! Reset, invariants and the step. -/

/-- R300, R301, R37: what reset leaves, from power-up under any configuration and from any state by the reset input; with
nothing to happen the core then waits. (`lastAddr`, frame buffers and result registers: no value stated.) -/
def Obligations.ResetLeavesTheStatedValues : Prop :=
  ∀ (c : Config) (s : State), (s = State.resetWith c ∨ ∃ s0 : State, s0.cfg = c ∧ s = resetCore s0) →
    s.cfg = c ∧ s.ready.length = c.maxChannels ∧ (∀ x, s.readyAt x = false) ∧ s.cursor = 0 ∧ s.addrValid = false ∧
      s.sstate = .idle ∧ s.sessions.length = c.nSessions ∧
      (∀ x, (s.session x).holds = false ∧ (s.session x).astate = .idle) ∧ s.excl = false ∧ s.seq.busy = false ∧
      s.seq.phase = .idle ∧ s.log = [] ∧ (s.agenda = [] → step s = .next s)

/-- R36, R300: the invariants hold right after reset. -/
def Obligations.ResetSatisfiesInvariant : Prop :=
  ∀ c : Config, c.Wf → Inv (State.resetWith c)

/-- R36: every step keeps the invariants I-a to I-f, the sizes of the tables and the memory's canonical form. -/
def Obligations.StepKeepsInvariant : Prop :=
  ∀ s t : State, Inv s → step s = .next t → Inv t

/-- R302: the reset input is served in a quiescent state, and keeps what is not the core's to reset; while the sequencer
is busy or a session polls it is refused (the refusal is the model's choice, log entry 19). -/
def Obligations.ResetInputNeedsQuiescence : Prop :=
  ∀ (s : State) (rest : List Event), s.agenda = .resetInput :: rest →
    ((s.seq.phase = .idle ∧ s.seq.busy = false ∧ ∀ x, (s.session x).astate = .idle) →
      ∃ t, step s = .next t ∧ t.cursor = 0 ∧ t.addrValid = false ∧ t.sstate = .idle ∧ t.excl = false ∧ t.log = [] ∧
        (∀ x, t.readyAt x = false ∧ (t.session x).holds = false) ∧ t.cfg = s.cfg ∧ t.tr = s.tr ∧ t.agenda = rest ∧
        SameMemory s t) ∧
    ((s.seq.busy = true ∨ s.seq.phase ≠ .idle ∨ ∃ x, (s.session x).astate = .polling) →
      step s = .refused .resetNotQuiescent)

/-- R66, R96: a step runs the instruction that stands where it takes its next one: in `PH_IDLE` the host request at the
head of the agenda; while the sequencer is busy the arbiter's request there, and else the sequencer's own frame. (The
three places are the model's, log entries 4, 9 and 10; so is when the port's request registers are loaded, log entry
27.) -/
def Obligations.StepRunsDecodedInstruction : Prop :=
  (∀ (s : State) (r : HostRequest) (rest : List Event) (i : Instr),
      s.agenda = .request r :: rest → decode s.cfg (.host r) = .ok i →
      wellFormed s.cfg i = true → (s.session r.sid).astate = .idle →
      ((s.seq.phase = .idle ∧ s.seq.busy = false) ∨ isArbiterOp i = true) →
      fetchWord s = some (.host r) ∧ step s = exec i ((s.setAgenda rest).setHreq r)) ∧
  (∀ (s : State) (a : List Event) (i : Instr), s.seq.phase = .tx → SequencersTurn s a →
      decode s.cfg (.request s.seq.txbuf) = .ok i →
      fetchWord s = some (.request s.seq.txbuf) ∧ step s = exec i (s.setAgenda a)) ∧
  (∀ (s : State) (a : List Event) (i : Instr), s.seq.phase = .check → SequencersTurn s a →
      decode s.cfg (.response (s.seq.rxhdr ++ s.seq.rxpay)) = .ok i →
      fetchWord s = some (.response (s.seq.rxhdr ++ s.seq.rxpay)) ∧ step s = exec i (s.setAgenda a))

/-- R97 a and b: a reserved code or an operand region past the end of `BUF` is not accepted: the request is gone
(log entry 13) and nothing else happens; that it is not loaded into the port's registers is log entry 27's choice. -/
def Obligations.IllegalRequestsHaveNoEffect : Prop :=
  ∀ (s : State) (r : HostRequest) (rest : List Event),
    s.seq.phase = .idle → s.agenda = .request r :: rest → (s.session r.sid).astate = .idle →
    (22 ≤ r.op.toNat ∨ (r.op = 5 ∧ 2 ^ s.cfg.bufAw < r.off + 8) ∨
      (r.op = 14 ∧ 2 ^ s.cfg.bufAw < r.off + r.len8.toNat)) →
    step s = .next (s.setAgenda rest)

/-- R96, R65, R240: while the sequencer is busy a request with any code but 20 and 21 waits: whatever the step does, it
stays at the head of the agenda and no session is given a result. A legal beginExclusive or endExclusive (codes 20 and
21) is accepted at once, in whatever phase the sequencer is, and leaves the sequencer to it. (Where the model rests while
busy is log entries 3, 9 and 10; that the port's request registers are loaded on acceptance, log entry 27.) -/
def Obligations.RoutedRequestsWaitWhileBusy : Prop :=
  ∀ (s : State) (r : HostRequest) (rest : List Event), Inv s → s.seq.busy = true → s.agenda = .request r :: rest →
    (∀ t, r.op ≠ 20 → r.op ≠ 21 → step s = .next t →
      t.agenda = s.agenda ∧ t.hreq = s.hreq ∧ t.sessions = s.sessions ∧ t.draws = s.draws) ∧
    ((r.op = 20 ∨ r.op = 21) → r.sid < s.cfg.nSessions → (s.session r.sid).astate = .idle →
      ∃ t, step s = .next t ∧ t.agenda = rest ∧ t.hreq = r ∧ t.seq = s.seq ∧ t.tr = s.tr ∧ t.ready = s.ready ∧
        t.log = s.log ∧ SameSearch s t ∧ SameMemory s t ∧ SameOthers r.sid s t)

/-! Encoding. -/

/-- R80, R81, R83, R84, R91 with `OPC_REF`: words written out from the encodings decode to the instructions they stand
for. That a bare word's width tells its format, and that the fields and payload bytes it does not hold are zero, is the
model's choice: log entry 5 (DESIGN CHOICE). -/
def Obligations.SampleWordsDecode : Prop :=
  decodeTableWord 32 0xDD000100 = some (.cmdPingChannel 0x00) ∧
  decodeTableWord 32 0xDD010801 = some (.cmdPutBit 0x01 false) ∧
  decodeTableWord 32 0xDD021208 = some (.cmdMatchRom 0x02 ⟨0, 0, 0, 0, 0, 0, 0, 0⟩) ∧
  decodeTableWord 32 0xDC000100 = none ∧
  decodeTableWord 8 0x0B = some (.putByte 0 0x00) ∧
  decodeTableWord 8 0x15 = some (.endExclusive 0) ∧
  decodeTableWord 8 0x16 = none ∧
  decodeTableWord 24 0x01FF00 = some (.respFailure 0x01 []) ∧
  decodeTableWord 24 0x005A01 = some (.respOther 0x00 0x5A [0x00])

/-- Decode and encode agree, for every well-formed instruction and every legal configuration (R10, R80, R81, R90). -/
def Obligations.DecodeEncodeAgree : Prop :=
  ∀ (c : Config) (i : Instr), c.Wf → wellFormed c i = true → decode c (encode c i) = .ok i

/-- The other direction: a frame that decodes begins with the encoding of what it decodes to, and a host request that
decodes has the operation, session and meaning of its encoding (R82, R97 g). -/
def Obligations.DecodedWordsAreEncodings : Prop :=
  ∀ (c : Config) (i : Instr),
    (∀ bytes, decode c (.request bytes) = .ok i → ∃ body rest, encode c i = .request body ∧ bytes = body ++ rest) ∧
    (∀ bytes, decode c (.response bytes) = .ok i → ∃ body rest, encode c i = .response body ∧ bytes = body ++ rest) ∧
    (∀ r, decode c (.host r) = .ok i →
      ∃ r', encode c i = .host r' ∧ r'.op = r.op ∧ r'.sid = r.sid ∧ decode c (.host r') = .ok i)

/-- R116: the round-trip laws of the frame codec, for every payload a length byte can declare; and, what R82 adds, the
bytes after the frame are left over. -/
def Obligations.FrameCodecRoundTrip : Prop :=
  ∀ (c : Config) (ch cmdbyte status : Byte) (pay rest : List Byte), pay.length ≤ 255 →
    decodeRequest c (encodeRequest c ch cmdbyte pay) = .request ch cmdbyte pay [] ∧
    decodeResponse (encodeResponse ch status pay) = .response ch status pay [] ∧
    decodeRequest c (encodeRequest c ch cmdbyte pay ++ rest) = .request ch cmdbyte pay rest ∧
    decodeResponse (encodeResponse ch status pay ++ rest) = .response ch status pay rest

/-! The wire commands. That a wire command is an instruction of its own, one exchange on its channel with the result in
`xres`, is the model's form (log entry 9); so are the responses as instructions (log entry 10). -/

/-- R131: PING_CHANNEL, sent whether or not the channel is ready. -/
def Obligations.PingCommandCompletes : Prop :=
  ∀ (s : State) (ch : Byte) (reply : List Byte), s.cfg.Wf → wellFormed s.cfg (.cmdPingChannel ch) = true →
    reply.length = s.cfg.respLen.pingChannel.toNat → Answers s (encodeResponse ch s.cfg.stSuccess reply) →
    ∃ t, exec (.cmdPingChannel ch) s = .next t ∧ t.seq.xres = .ok reply ∧
      framesSent s t = [[s.cfg.marker, ch, s.cfg.opc.pingChannel, 0]] ∧ t.ready = s.ready ∧ WireKept s t

/-- R132 to R137, R139, R142, R146: the commands with an empty request payload. -/
def Obligations.EmptyPayloadCommandsComplete : Prop :=
  ∀ (s : State) (ch : Byte) (i : Instr) (cmd : WireCmd) (reply : List Byte),
    (i, cmd) ∈ [(Instr.cmdFindFirst ch, WireCmd.findFirst), (.cmdFindNext ch, .findNext),
      (.cmdGetAddress ch, .getAddress), (.cmdSetSearchOnlyAlarming ch, .setSearchOnlyAlarming),
      (.cmdSetNoResetSearch ch, .setNoResetSearch), (.cmdSetSearchAll ch, .setSearchAll),
      (.cmdGetByte ch, .getByte), (.cmdReset ch, .reset), (.cmdTargetAllFamilies ch, .targetAllFamilies)] →
    s.cfg.Wf → wellFormed s.cfg i = true → s.readyAt ch.toNat = true →
    reply.length = (s.cfg.respLen.get cmd).toNat → Answers s (encodeResponse ch s.cfg.stSuccess reply) →
    ∃ t, exec i s = .next t ∧ t.seq.xres = .ok reply ∧
      framesSent s t = [[s.cfg.marker, ch, s.cfg.opc.get cmd, 0]] ∧ t.ready = s.ready ∧ WireKept s t

/-- R138, R140, R143, R145: the commands with a one-byte request payload; GET_BLOCK's response is as long as its
operand says. -/
def Obligations.OneByteCommandsComplete : Prop :=
  ∀ (s : State) (ch b : Byte) (v : Bool) (i : Instr) (cmd : WireCmd) (sent : Byte) (explen : Nat)
    (reply : List Byte),
    (i, cmd, sent, explen) ∈
      [(Instr.cmdPutBit ch v, WireCmd.putBit, (if v then 0x01 else 0x00), s.cfg.respLen.putBit.toNat),
       (.cmdGetBlock ch b, .getBlock, b, b.toNat), (.cmdPutByte ch b, .putByte, b, s.cfg.respLen.putByte.toNat),
       (.cmdTargetFamily ch b, .targetFamily, b, s.cfg.respLen.targetFamily.toNat)] →
    s.cfg.Wf → wellFormed s.cfg i = true → s.readyAt ch.toNat = true → reply.length = explen →
    Answers s (encodeResponse ch s.cfg.stSuccess reply) →
    ∃ t, exec i s = .next t ∧ t.seq.xres = .ok reply ∧
      framesSent s t = [[s.cfg.marker, ch, s.cfg.opc.get cmd, 1, sent]] ∧ t.ready = s.ready ∧ WireKept s t

/-- R141, R147, R148: the commands that carry a block or an address; DATA_BLOCK's response is as long as the block. -/
def Obligations.BlockAndAddressCommandsComplete : Prop :=
  ∀ (s : State) (ch : Byte) (block : List Byte) (addr : DevAddr) (i : Instr) (cmd : WireCmd) (sent : List Byte)
    (explen : Nat) (reply : List Byte),
    (i, cmd, sent, explen) ∈
      [(Instr.cmdDataBlock ch block, WireCmd.dataBlock, block, block.length),
       (.cmdSearchRom ch addr, .searchRom,
        [addr.b0, addr.b1, addr.b2, addr.b3, addr.b4, addr.b5, addr.b6, addr.b7], s.cfg.respLen.searchRom.toNat),
       (.cmdMatchRom ch addr, .matchRom,
        [addr.b0, addr.b1, addr.b2, addr.b3, addr.b4, addr.b5, addr.b6, addr.b7], s.cfg.respLen.matchRom.toNat)] →
    s.cfg.Wf → wellFormed s.cfg i = true → s.readyAt ch.toNat = true → reply.length = explen →
    Answers s (encodeResponse ch s.cfg.stSuccess reply) →
    ∃ t, exec i s = .next t ∧ t.seq.xres = .ok reply ∧
      framesSent s t = [[s.cfg.marker, ch, s.cfg.opc.get cmd, byteOf sent.length] ++ sent] ∧ t.ready = s.ready ∧
      WireKept s t

/-- R161: a wire command other than PING_CHANNEL to a channel that is not ready sends nothing and changes nothing but
`xres` (log entry 9). -/
def Obligations.CommandsToUnreadyChannelsAreSkipped : Prop :=
  ∀ (s : State) (ch b : Byte) (v : Bool) (block : List Byte) (addr : DevAddr) (i : Instr),
    i ∈ [Instr.cmdFindFirst ch, .cmdFindNext ch, .cmdGetAddress ch, .cmdSetSearchOnlyAlarming ch,
      .cmdSetNoResetSearch ch, .cmdSetSearchAll ch, .cmdPutBit ch v, .cmdGetByte ch, .cmdGetBlock ch b,
      .cmdDataBlock ch block, .cmdReset ch, .cmdPutByte ch b, .cmdTargetFamily ch b, .cmdTargetAllFamilies ch,
      .cmdSearchRom ch addr, .cmdMatchRom ch addr] →
    s.readyAt ch.toNat = false →
    ∃ t, exec i s = .next t ∧ t.seq.xres = .skipped ∧ t.tr = s.tr ∧ t.ready = s.ready ∧ WireKept s t

/-- R144, U7: SET_POWER_NORMAL is never sent: the instruction is refused by name (log entry 15), and no frame that any
instruction sends carries its command byte. -/
def Obligations.SetPowerNormalIsNeverSent : Prop :=
  (∀ (s : State) (ch : Byte) (pay : List Byte), exec (.cmdSetPowerNormal ch pay) s = .refused .neverSent) ∧
  (∀ (s t : State) (i : Instr) (frame : List Byte), s.cfg.Wf → exec i s = .next t → frame ∈ framesSent s t →
    ∃ ch cmdbyte rest, frame = s.cfg.marker :: ch :: cmdbyte :: rest ∧ cmdbyte ≠ s.cfg.opc.setPowerNormal)

/-- R115, R86, R121: what a response that has been read gives against the exchange in hand, by status class. -/
def Obligations.ResponsesAreValidated : Prop :=
  ∀ (s : State) (ch status : Byte) (pay : List Byte), s.cfg.Wf →
    (∃ t, exec (.respSuccess ch pay) s = .next t ∧ WireKept s t ∧ t.tr = s.tr ∧
      (ch ≠ s.seq.xch → t.seq.xres = .err .channelMismatch (infoOf s.seq.xch ch) ∧ t.ready = s.ready) ∧
      (ch = s.seq.xch → pay.length ≠ s.seq.xlen →
        t.seq.xres = .err .lengthMismatch (infoOf (byteOf s.seq.xlen) (byteOf pay.length)) ∧
        (s.cfg.downgrade = true → s.seq.xcmd ≠ .pingChannel → t.ready = s.ready.set s.seq.xch.toNat false) ∧
        ((s.cfg.downgrade = false ∨ s.seq.xcmd = .pingChannel) → t.ready = s.ready)) ∧
      (ch = s.seq.xch → pay.length = s.seq.xlen → t.seq.xres = .ok pay ∧ t.ready = s.ready)) ∧
    (∃ t, exec (.respFailure ch pay) s = .next t ∧ WireKept s t ∧ t.tr = s.tr ∧ t.ready = s.ready ∧
      (ch ≠ s.seq.xch → t.seq.xres = .err .channelMismatch (infoOf s.seq.xch ch)) ∧
      (ch = s.seq.xch → t.seq.xres = .err .statusFailure (infoOf s.cfg.stFailure (byteOf pay.length)))) ∧
    (wellFormed s.cfg (.respOther ch status pay) = true →
      ∃ t, exec (.respOther ch status pay) s = .next t ∧ WireKept s t ∧ t.tr = s.tr ∧ t.ready = s.ready ∧
      (ch ≠ s.seq.xch → t.seq.xres = .err .channelMismatch (infoOf s.seq.xch ch)) ∧
      (ch = s.seq.xch → t.seq.xres = .err .statusOther (infoOf status (byteOf pay.length))))

/-! The transfer engine. In each of these the device answers the request in full with status SUCCESS. -/

/-- R191, R138: putBit sends its bit as one byte and ignores the byte that comes back. -/
def Obligations.PutBitCompletes : Prop :=
  ∀ (s : State) (sid : Nat) (v : Bool) (reply : List Byte), s.cfg.Wf → Accepted s (.putBit sid v) sid →
    s.readyAt s.cursor = true → reply.length = s.cfg.respLen.putBit.toNat →
    Answers s (encodeResponse (byteOf s.cursor) s.cfg.stSuccess reply) →
    ∃ t, exec (.putBit sid v) s = .next t ∧ ResultOk t sid ∧
      framesSent s t = [[s.cfg.marker, byteOf s.cursor, s.cfg.opc.putBit, 1, if v then 0x01 else 0x00]] ∧
      SameMemory s t ∧ TransferKept sid s t

/-- R192, R88 a, R11: getBit sends PUT_BIT with payload 1, takes a payload of the length `RESP_LEN` names (1 by default)
and reads any nonzero byte as true. (For a payload that is not one byte no result is stated: log entry 16.) -/
def Obligations.GetBitCompletes : Prop :=
  ∀ (s : State) (sid : Nat) (reply : List Byte), s.cfg.Wf → Accepted s (.getBit sid) sid →
    s.readyAt s.cursor = true → reply.length = s.cfg.respLen.putBit.toNat →
    Answers s (encodeResponse (byteOf s.cursor) s.cfg.stSuccess reply) →
    ∃ t, exec (.getBit sid) s = .next t ∧ ResultOk t sid ∧
      (∀ b, reply = [b] → ((t.session sid).result.rbool = true ↔ b ≠ 0)) ∧
      framesSent s t = [[s.cfg.marker, byteOf s.cursor, s.cfg.opc.putBit, 1, 0x01]] ∧
      SameMemory s t ∧ TransferKept sid s t

/-- R193, R143: putByte sends its byte unchanged. -/
def Obligations.PutByteCompletes : Prop :=
  ∀ (s : State) (sid : Nat) (v : Byte) (reply : List Byte), s.cfg.Wf → Accepted s (.putByte sid v) sid →
    s.readyAt s.cursor = true → reply.length = s.cfg.respLen.putByte.toNat →
    Answers s (encodeResponse (byteOf s.cursor) s.cfg.stSuccess reply) →
    ∃ t, exec (.putByte sid v) s = .next t ∧ ResultOk t sid ∧
      framesSent s t = [[s.cfg.marker, byteOf s.cursor, s.cfg.opc.putByte, 1, v]] ∧
      SameMemory s t ∧ TransferKept sid s t

/-- R194, R139, R11: getByte takes a payload of the length `RESP_LEN` names (1 by default) and returns its byte. (For a
payload that is not one byte no result is stated: log entry 16.) -/
def Obligations.GetByteCompletes : Prop :=
  ∀ (s : State) (sid : Nat) (reply : List Byte), s.cfg.Wf → Accepted s (.getByte sid) sid →
    s.readyAt s.cursor = true → reply.length = s.cfg.respLen.getByte.toNat →
    Answers s (encodeResponse (byteOf s.cursor) s.cfg.stSuccess reply) →
    ∃ t, exec (.getByte sid) s = .next t ∧ ResultOk t sid ∧
      (∀ b, reply = [b] → (t.session sid).result.rbyte = b) ∧
      framesSent s t = [[s.cfg.marker, byteOf s.cursor, s.cfg.opc.getByte, 0]] ∧
      SameMemory s t ∧ TransferKept sid s t

/-- R195, R140: getBlock asks for `n` bytes and returns exactly those, from `rdata[0]` on. -/
def Obligations.GetBlockCompletes : Prop :=
  ∀ (s : State) (sid : Nat) (n : Byte) (block : List Byte), s.cfg.Wf → Accepted s (.getBlock sid n) sid →
    s.readyAt s.cursor = true → block.length = n.toNat →
    Answers s ([byteOf s.cursor, s.cfg.stSuccess, n] ++ block) →
    ∃ t, exec (.getBlock sid n) s = .next t ∧ ResultOk t sid ∧ (t.session sid).result.rlen = n ∧
      (t.session sid).result.rdata.take n.toNat = block ∧ (t.session sid).result.rdata.length = 255 ∧
      framesSent s t = [[s.cfg.marker, byteOf s.cursor, s.cfg.opc.getBlock, 1, n]] ∧
      SameMemory s t ∧ TransferKept sid s t

/-- R196, R141, R71: dataBlock sends the region it names and overwrites exactly that region with the answer. -/
def Obligations.DataBlockCompletes : Prop :=
  ∀ (s : State) (sid off : Nat) (n : Byte) (block : List Byte), s.cfg.Wf → Memory.wf s.buf = true →
    Accepted s (.dataBlock sid off n) sid → s.readyAt s.cursor = true → block.length = n.toNat →
    Answers s ([byteOf s.cursor, s.cfg.stSuccess, n] ++ block) →
    ∃ t, exec (.dataBlock sid off n) s = .next t ∧ ResultOk t sid ∧
      framesSent s t =
        [[s.cfg.marker, byteOf s.cursor, s.cfg.opc.dataBlock, n] ++ memRead s off n.toNat] ∧
      memRead t off n.toNat = block ∧
      (∀ a, (a < off ∨ off + n.toNat ≤ a) → Memory.read t.buf a = Memory.read s.buf a) ∧ TransferKept sid s t

/-- R197, R142: reset returns 1 on a valid response, and resets no register of the core (R300). -/
def Obligations.ResetCompletes : Prop :=
  ∀ (s : State) (sid : Nat) (reply : List Byte), s.cfg.Wf → Accepted s (.reset sid) sid →
    s.readyAt s.cursor = true → reply.length = s.cfg.respLen.reset.toNat →
    Answers s (encodeResponse (byteOf s.cursor) s.cfg.stSuccess reply) →
    ∃ t, exec (.reset sid) s = .next t ∧ ResultOk t sid ∧ (t.session sid).result.rbyte = 1 ∧
      framesSent s t = [[s.cfg.marker, byteOf s.cursor, s.cfg.opc.reset, 0]] ∧
      SameMemory s t ∧ TransferKept sid s t

/-- R199, R148, R88 b, R11: select takes a payload of the length `RESP_LEN` names (1 by default) and is true exactly for
the flag byte 1; a non-match is no error. (For a payload that is not one byte no result is stated: log entry 16.) -/
def Obligations.SelectCompletes : Prop :=
  ∀ (s : State) (sid : Nat) (addr : DevAddr) (reply : List Byte), s.cfg.Wf → Accepted s (.select sid addr) sid →
    s.readyAt s.cursor = true → reply.length = s.cfg.respLen.matchRom.toNat →
    Answers s (encodeResponse (byteOf s.cursor) s.cfg.stSuccess reply) →
    ∃ t, exec (.select sid addr) s = .next t ∧ ResultOk t sid ∧
      (∀ f, reply = [f] → ((t.session sid).result.rbool = true ↔ f = 0x01)) ∧
      framesSent s t = [[s.cfg.marker, byteOf s.cursor, s.cfg.opc.matchRom, 8, addr.b0, addr.b1, addr.b2, addr.b3,
        addr.b4, addr.b5, addr.b6, addr.b7]] ∧
      SameMemory s t ∧ TransferKept sid s t

/-- R162, R161: on a channel that is not ready a single-channel operation sends nothing and changes nothing but its
result, which is `SKIPPED`, with a false boolean where it has one. -/
def Obligations.TransfersSkipUnreadyChannel : Prop :=
  ∀ (s : State) (sid off : Nat) (v : Bool) (b : Byte) (addr : DevAddr) (i : Instr),
    i ∈ [Instr.putBit sid v, .getBit sid, .putByte sid b, .getByte sid, .getBlock sid b, .dataBlock sid off b,
      .reset sid, .select sid addr] →
    Accepted s i sid → s.readyAt s.cursor = false →
    ∃ t, exec i s = .next t ∧ ResultSkipped t sid ∧
      ((i = .getBit sid ∨ i = .select sid addr) → (t.session sid).result.rbool = false) ∧
      t.tr = s.tr ∧ SameMemory s t ∧ TransferKept sid s t

/-- R190, R270, R261, R86, R115: every failing exchange ends a transfer with an error that names its cause, and the kind
R261 gives that cause; `BUF` is left alone, and the ready flag is cleared on a communication error with the downgrade on
and not otherwise. First for every cause, told by what the exchange itself gives from the state `s`; then for what the
device answers: the wrong channel, the failure status, another status, a wrong length. -/
def Obligations.TransferFailuresAreSurfaced : Prop :=
  ∀ (s : State) (sid off : Nat) (v : Bool) (b : Byte) (i : Instr) (cmd : WireCmd) (sent : List Byte) (explen : Nat),
    (i, cmd, sent, explen) ∈
      [(Instr.putBit sid v, WireCmd.putBit, [if v then (0x01 : Byte) else 0x00], s.cfg.respLen.putBit.toNat),
       (.getBit sid, .putBit, [0x01], s.cfg.respLen.putBit.toNat),
       (.putByte sid b, .putByte, [b], s.cfg.respLen.putByte.toNat),
       (.getByte sid, .getByte, [], s.cfg.respLen.getByte.toNat), (.getBlock sid b, .getBlock, [b], b.toNat),
       (.dataBlock sid off b, .dataBlock, memRead s off b.toNat, b.toNat)] →
    Accepted s i sid → s.readyAt s.cursor = true →
    (∀ (u : State) (cause : Cause) (kind : ErrKind) (info : BitVec 16), (cause, kind) ∈ exchangeCauses →
      exchangeCh s.cursor cmd sent explen s = (.err cause info, u) →
      ∃ t, exec i s = .next t ∧ ResultErr t sid kind cause info ∧ t.tr = u.tr ∧
        t.ready = (if s.cfg.downgrade = true ∧ kind = .communication then s.ready.set s.cursor false else s.ready) ∧
        t.log = s.log ∧ SameSearch s t ∧ SameMemory s t ∧ SameTokens s t ∧ SameOthers sid s t ∧ SamePort s t ∧
        Idle t) ∧
    (∀ (ch status : Byte) (pay : List Byte), s.cfg.Wf → pay.length ≤ 255 →
      Answers s (encodeResponse ch status pay) →
      ∃ t, exec i s = .next t ∧
        (ch ≠ byteOf s.cursor → ResultErr t sid .protocol .channelMismatch (infoOf (byteOf s.cursor) ch)) ∧
        (ch = byteOf s.cursor → status = s.cfg.stFailure →
          ResultErr t sid .remoteFailure .statusFailure (infoOf status (byteOf pay.length))) ∧
        (ch = byteOf s.cursor → status ≠ s.cfg.stFailure → status ≠ s.cfg.stSuccess →
          ResultErr t sid .protocol .statusOther (infoOf status (byteOf pay.length))) ∧
        (ch = byteOf s.cursor → status = s.cfg.stSuccess → pay.length ≠ explen →
          ResultErr t sid .communication .lengthMismatch (infoOf (byteOf explen) (byteOf pay.length))))

/-- R58, R114, R121, R197, R317: a device that does not answer ends a transfer with CommunicationError, cause
`ShortHeader`, and with the downgrade on takes the channel out of service; `BUF` is left alone. -/
def Obligations.SilenceIsSurfacedAndDowngrades : Prop :=
  ∀ (s : State) (sid off : Nat) (v : Bool) (b : Byte) (i : Instr),
    i ∈ [Instr.putBit sid v, .getBit sid, .putByte sid b, .getByte sid, .getBlock sid b, .dataBlock sid off b,
      .reset sid] →
    Accepted s i sid → s.readyAt s.cursor = true → StaysSilent s →
    ∃ t, exec i s = .next t ∧ ResultErr t sid .communication .shortHeader 0 ∧
      t.ready = (if s.cfg.downgrade then s.ready.set s.cursor false else s.ready) ∧
      t.log = s.log ∧ SameSearch s t ∧ SameMemory s t ∧ SameTokens s t ∧ SameOthers sid s t ∧ SamePort s t ∧ Idle t

/-- R119, R120, R121: a failed write, and a failed flush after a write that succeeded, end a transfer with cause
`WriteFail`; the boundary calls end there, so nothing is read; with the downgrade on the channel is taken out of
service. -/
def Obligations.WriteFailureReadsNothing : Prop :=
  ∀ (s : State) (sid off : Nat) (v : Bool) (b : Byte) (i : Instr) (cmd : WireCmd) (pay : List Byte),
    (i, cmd, pay) ∈
      [(Instr.putBit sid v, WireCmd.putBit, [if v then (0x01 : Byte) else 0x00]), (.getBit sid, .putBit, [0x01]),
       (.putByte sid b, .putByte, [b]), (.getByte sid, .getByte, []), (.getBlock sid b, .getBlock, [b]),
       (.dataBlock sid off b, .dataBlock, memRead s off b.toNat), (.reset sid, .reset, [])] →
    Accepted s i sid → s.readyAt s.cursor = true →
    (WriteWillFail s ∨ (s.tr.writeAns.head? = some true ∧ s.tr.flushAns.head? = some false)) →
    ∃ t, exec i s = .next t ∧ ResultErr t sid .communication .writeFail 0 ∧
      (WriteWillFail s → newEvents s t = [.write (wireFrame s.cfg (byteOf s.cursor) cmd pay) false]) ∧
      (s.tr.writeAns.head? = some true →
        newEvents s t = [.write (wireFrame s.cfg (byteOf s.cursor) cmd pay) true, .flush false]) ∧
      t.tr.rx = s.tr.rx ∧ t.ready = (if s.cfg.downgrade then s.ready.set s.cursor false else s.ready) ∧
      t.log = s.log ∧ SameSearch s t ∧ SameMemory s t ∧ SameTokens s t ∧ SameOthers sid s t ∧ SamePort s t ∧ Idle t

/-- R197, 90_conflicts.md C7: whatever cause its exchange fails with, reset ends with an error of kind CommunicationError
that still names that cause; and no error of reset has another kind. -/
def Obligations.ResetReportsCommunicationErrors : Prop :=
  (∀ (s u : State) (sid : Nat) (cause : Cause) (kind : ErrKind) (info : BitVec 16), Accepted s (.reset sid) sid →
    s.readyAt s.cursor = true → (cause, kind) ∈ exchangeCauses →
    exchangeCh s.cursor .reset [] s.cfg.respLen.reset.toNat s = (.err cause info, u) →
    ∃ t, exec (.reset sid) s = .next t ∧ ResultErr t sid .communication cause info ∧ t.tr = u.tr ∧
      t.ready = (if s.cfg.downgrade = true ∧ kind = .communication then s.ready.set s.cursor false else s.ready) ∧
      t.log = s.log ∧ SameSearch s t ∧ SameMemory s t ∧ SameTokens s t ∧ SameOthers sid s t ∧ SamePort s t ∧ Idle t) ∧
  (∀ (s t : State) (sid : Nat), Accepted s (.reset sid) sid → exec (.reset sid) s = .next t →
    (t.session sid).result.status = .err → (t.session sid).result.kind = some .communication)

/-- R200, R199, R198: a failing exchange ends select and isPresent with an error under `Raise`, and counts as a false
flag, with a record in the log, under `AsNotFound`. Here the device answers with the failure status, and for isPresent
the channel asked is the only ready one. -/
def Obligations.PresenceErrorsFollowThePolicy : Prop :=
  ∀ (s : State) (sid : Nat) (addr : DevAddr) (i : Instr), s.cfg.Wf → s.ready.length = s.cfg.maxChannels →
    (i = .select sid addr ∨ (i = .isPresent sid addr ∧ ∀ x, x ≠ s.cursor → s.readyAt x = false)) →
    Accepted s i sid → s.readyAt s.cursor = true → Answers s [byteOf s.cursor, s.cfg.stFailure, 0] →
    ∃ t, exec i s = .next t ∧ t.ready = s.ready ∧ SameMemory s t ∧ SameTokens s t ∧
      (s.cfg.presencePolicy = .raise →
        ResultErr t sid .remoteFailure .statusFailure (infoOf s.cfg.stFailure 0) ∧ t.log = s.log) ∧
      (s.cfg.presencePolicy = .asNotFound → ResultOk t sid ∧ (t.session sid).result.rbool = false ∧
        ∃ rec, t.log = s.log ++ [rec] ∧ rec.sid = sid ∧ rec.ch = s.cursor ∧
          rec.outcome = .err .statusFailure (infoOf s.cfg.stFailure 0))

/-- R200, R199, R198, R121: the same for every cause an exchange can fail with, told by what the exchange itself gives
from the state `s`: the kind raised is the cause's, the ready flag of the channel asked is cleared on a communication
error with the downgrade on, and under `AsNotFound` isPresent goes on to the next channel that is ready. -/
def Obligations.PresenceFailuresOfEveryCause : Prop :=
  ∀ (s u : State) (sid c : Nat) (addr : DevAddr) (cause : Cause) (info : BitVec 16), s.cfg.Wf →
    s.readyAt c = true →
    (Accepted s (.select sid addr) sid → c = s.cursor →
      exchangeCh c .matchRom (addrBytes addr) s.cfg.respLen.matchRom.toNat s = (.err cause info, u) →
      ∃ t, exec (.select sid addr) s = .next t ∧ t.tr = u.tr ∧
        t.ready = (if s.cfg.downgrade = true ∧ kindOf cause = .communication then s.ready.set c false else s.ready) ∧
        (s.cfg.presencePolicy = .raise → ResultErr t sid (kindOf cause) cause info ∧ t.log = s.log) ∧
        (s.cfg.presencePolicy = .asNotFound → ResultOk t sid ∧ (t.session sid).result.rbool = false ∧
          t.log = s.log ++ [⟨sid, .select, c, .matchRom, .err cause info⟩]) ∧
        SameSearch s t ∧ SameMemory s t ∧ SameTokens s t ∧ SameOthers sid s t ∧ SamePort s t ∧ Idle t) ∧
    (Accepted s (.isPresent sid addr) sid → c < s.cfg.maxChannels → (∀ x, x < c → s.readyAt x = false) →
      exchangeCh c .searchRom (addrBytes addr) s.cfg.respLen.searchRom.toNat s = (.err cause info, u) →
      ∃ t, exec (.isPresent sid addr) s = .next t ∧ t.cursor = 0 ∧
        (s.cfg.presencePolicy = .raise → ResultErr t sid (kindOf cause) cause info ∧ t.log = s.log ∧ t.tr = u.tr ∧
          t.ready =
            (if s.cfg.downgrade = true ∧ kindOf cause = .communication then s.ready.set c false else s.ready)) ∧
        (s.cfg.presencePolicy = .asNotFound → (∀ x, c < x → s.readyAt x = false) →
          ResultOk t sid ∧ (t.session sid).result.rbool = false ∧ t.tr = u.tr ∧
            t.ready =
              (if s.cfg.downgrade = true ∧ kindOf cause = .communication then s.ready.set c false else s.ready) ∧
            t.log = s.log ++ [⟨sid, .isPresent, c, .searchRom, .err cause info⟩]) ∧
        (s.cfg.presencePolicy = .asNotFound → ∀ d, c < d → d < s.cfg.maxChannels → s.readyAt d = true →
          (∀ x, c < x → x < d → s.readyAt x = false) → s.cfg.respLen.searchRom = 1 →
          Answers u [byteOf d, s.cfg.stSuccess, 1, s.cfg.flagByte] →
          ResultOk t sid ∧ (t.session sid).result.rbool = true ∧
            framesSent s t = [wireFrame s.cfg (byteOf c) .searchRom (addrBytes addr),
              wireFrame s.cfg (byteOf d) .searchRom (addrBytes addr)] ∧
            t.ready =
              (if s.cfg.downgrade = true ∧ kindOf cause = .communication then s.ready.set c false else s.ready) ∧
            t.log = s.log ++ [⟨sid, .isPresent, c, .searchRom, .err cause info⟩]))

/-- R198, R147: isPresent asks the ready channels in ascending order until one answers with the match flag, and no channel
after it; the result is whether one did, so `OK(false)` where every ready channel has answered with another flag; the
cursor is left at 0 and the rest of the search alone. The device answers the ready channels among the first `n`, with
`flag x` on channel `x`; these are all of them, or the last of them matches. (The flag is one byte, as in the default
`RESP_LEN`; for a flag of another length no result is stated: log entry 16.) -/
def Obligations.IsPresentFindsMatch : Prop :=
  ∀ (s : State) (sid n : Nat) (addr : DevAddr) (flag : Nat → Byte), s.cfg.Wf →
    Accepted s (.isPresent sid addr) sid → s.cfg.respLen.searchRom = 1 → n ≤ s.cfg.maxChannels →
    (∀ x, x + 1 < n → s.readyAt x = true → flag x ≠ s.cfg.flagByte) →
    (n = s.cfg.maxChannels ∨ ∃ c, n = c + 1 ∧ s.readyAt c = true ∧ flag c = s.cfg.flagByte) →
    AnswersInTurn s ((List.range n).filter s.readyAt).length
      (((List.range n).filter s.readyAt).flatMap (fun x => [byteOf x, s.cfg.stSuccess, 1, flag x])) →
    ∃ t, exec (.isPresent sid addr) s = .next t ∧ ResultOk t sid ∧
      ((t.session sid).result.rbool = true ↔ ∃ x, x < n ∧ s.readyAt x = true ∧ flag x = s.cfg.flagByte) ∧
      framesSent s t = ((List.range n).filter s.readyAt).map (fun x => [s.cfg.marker, byteOf x, s.cfg.opc.searchRom, 8,
        addr.b0, addr.b1, addr.b2, addr.b3, addr.b4, addr.b5, addr.b6, addr.b7]) ∧
      t.cursor = 0 ∧ t.lastAddr = s.lastAddr ∧ t.addrValid = s.addrValid ∧ t.sstate = s.sstate ∧
      t.ready = s.ready ∧ t.log = s.log ∧ SameMemory s t ∧ SameTokens s t ∧ SameOthers sid s t ∧ SamePort s t ∧
      Idle t

/-- R198, R311, D25: on every exit, found or not, error or not, isPresent leaves the cursor at 0 and touches neither the
address nor the search state; with no ready channel it is `OK(false)` and sends nothing. -/
def Obligations.IsPresentAlwaysResetsCursor : Prop :=
  ∀ (s : State) (sid : Nat) (addr : DevAddr), Accepted s (.isPresent sid addr) sid →
    ∃ t, exec (.isPresent sid addr) s = .next t ∧ t.cursor = 0 ∧ t.lastAddr = s.lastAddr ∧
      t.addrValid = s.addrValid ∧ t.sstate = s.sstate ∧ SameMemory s t ∧ SameTokens s t ∧ SameOthers sid s t ∧
      SamePort s t ∧ Idle t ∧
      (s.cfg.presencePolicy = .asNotFound → ResultOk t sid) ∧
      ((∀ x, s.readyAt x = false) → ResultOk t sid ∧ (t.session sid).result.rbool = false ∧ t.tr = s.tr)

/-! The router. -/

/-- R170: selectPort reports the connection code's verdict and changes no register of the core. -/
def Obligations.SelectPortReportsTheVerdict : Prop :=
  ∀ (s : State) (sid port : Nat) (ok : Bool), Accepted s (.selectPort sid port) sid →
    s.tr.connAns.head? = some ok →
    ∃ t, exec (.selectPort sid port) s = .next t ∧
      (ok = true → ResultOk t sid) ∧ (ok = false → ResultErr t sid .connection .connectFail 0) ∧
      framesSent s t = [] ∧ SameMemory s t ∧ TransferKept sid s t

/-- R171, R321: freePort invalidates the search and leaves the ready table and the tokens alone. (That it leaves the
transport's streams alone too is the model's choice: what the connection code makes of them is an event of its own, log
entry 26.) -/
def Obligations.FreePortInvalidatesTheSearch : Prop :=
  ∀ (s : State) (sid port : Nat), Accepted s (.freePort sid port) sid →
    ∃ t, exec (.freePort sid port) s = .next t ∧ ResultOk t sid ∧ t.cursor = 0 ∧ t.addrValid = false ∧
      t.sstate = .idle ∧ t.lastAddr = s.lastAddr ∧ t.ready = s.ready ∧ t.log = s.log ∧ t.tr = s.tr ∧
      SameMemory s t ∧ SameTokens s t ∧ SameOthers sid s t ∧ SamePort s t ∧ Idle t

/-- R165, R164, R172: adapterDetected pings every channel slot once, in ascending order; a channel ends ready exactly if
the exchange of its own ping gave `Ok` (law L-2), and exactly if its ping's record says so; the result is whether one
does; the search is invalidated. -/
def Obligations.AdapterDetectedProbesEverySlot : Prop :=
  ∀ (s : State) (sid : Nat), Accepted s (.adapterDetected sid) sid → s.ready.length = s.cfg.maxChannels →
    ∃ t recs, exec (.adapterDetected sid) s = .next t ∧ ResultOk t sid ∧
      ((t.session sid).result.rbool = true ↔ ∃ c, c < s.cfg.maxChannels ∧ t.readyAt c = true) ∧
      framesSent s t =
        (List.range s.cfg.maxChannels).map (fun c => [s.cfg.marker, byteOf c, s.cfg.opc.pingChannel, 0]) ∧
      t.log = s.log ++ recs ∧ recs.map (fun r => (r.sid, r.op, r.ch, r.cmd)) =
        (List.range s.cfg.maxChannels).map (fun c => (sid, HostOp.adapterDetected, c, WireCmd.pingChannel)) ∧
      (∀ rec ∈ recs, (t.readyAt rec.ch = true ↔ rec.outcome = .ok)) ∧
      (∀ x, t.readyAt x = true ↔ (x < s.cfg.maxChannels ∧ ∃ p,
        (exchange (byteOf x) .pingChannel [] s.cfg.respLen.pingChannel.toNat (afterPings s x)).1 = .ok p)) ∧
      t.tr = (afterPings s s.cfg.maxChannels).tr ∧
      t.cursor = 0 ∧ t.addrValid = false ∧ t.sstate = .idle ∧ t.lastAddr = s.lastAddr ∧
      t.ready.length = s.ready.length ∧ SameMemory s t ∧ SameTokens s t ∧ SameOthers sid s t ∧ SamePort s t ∧ Idle t

/-- R163, R166 to R169, R173, R174, R172, R121: a filter operation sends its command once to every channel that is ready,
in ascending order, logs for every slot what its own exchange gave, or that it was skipped, clears the ready flag of a
channel whose exchange failed to communicate, with the downgrade on, and no other, and is `OK` whatever the device
answers. -/
def Obligations.FilterOperationsBroadcast : Prop :=
  ∀ (s : State) (sid n : Nat) (family : Byte) (i : Instr) (op : HostOp) (cmd : WireCmd) (pay : List Byte),
    (i, op, cmd, pay) ∈
      [(Instr.setSearchOnlyAlarmingDevices sid, HostOp.setSearchOnlyAlarmingDevices,
        WireCmd.setSearchOnlyAlarming, ([] : List Byte)),
       (.setNoResetSearch sid, .setNoResetSearch, .setNoResetSearch, []),
       (.setSearchAllDevices sid, .setSearchAllDevices, .setSearchAll, []),
       (.targetFamily sid family, .targetFamily, .targetFamily, [family]),
       (.targetAllFamilies sid, .targetAllFamilies, .targetAllFamilies, [])] →
    n = (s.cfg.respLen.get cmd).toNat → Accepted s i sid →
    ∃ t recs, exec i s = .next t ∧ ResultOk t sid ∧
      framesSent s t = ((List.range s.cfg.maxChannels).filter s.readyAt).map
        (fun c => [s.cfg.marker, byteOf c, s.cfg.opc.get cmd, byteOf pay.length] ++ pay) ∧
      t.log = s.log ++ recs ∧ recs.map (fun r => (r.sid, r.op, r.ch, r.cmd)) =
        (List.range s.cfg.maxChannels).map (fun c => (sid, op, c, cmd)) ∧
      (∀ rec ∈ recs, (rec.outcome = .skipped ↔ s.readyAt rec.ch = false) ∧
        (s.readyAt rec.ch = true →
          (∀ p, answerOf s.readyAt cmd pay n s rec.ch = .ok p → rec.outcome = .ok) ∧
          (∀ cause info, answerOf s.readyAt cmd pay n s rec.ch = .err cause info →
            rec.outcome = .err cause info))) ∧
      (∀ x, t.readyAt x = true ↔ (s.readyAt x = true ∧ ¬(x < s.cfg.maxChannels ∧ s.cfg.downgrade = true ∧
        ∃ cause info, answerOf s.readyAt cmd pay n s x = .err cause info ∧ kindOf cause = .communication))) ∧
      t.tr = (afterAsking s.readyAt cmd pay n s s.cfg.maxChannels).tr ∧
      SameSearch s t ∧ SameMemory s t ∧ SameTokens s t ∧ SameOthers sid s t ∧ SamePort s t ∧ Idle t

/-! The search. -/

/-- R223, R164, R222, R228: findFirstDevice never ends with an error; it ends `Found` on a ready channel with a valid
address exactly if its result is true, else `Exhausted` with the cursor at 0, the address invalid and its bytes untouched.
And its scan, from what the probe has left, told by what the exchanges give: a channel on which FIND_FIRST is answered with
another flag or fails, or GET_ADDRESS fails, is logged and downgraded as that exchange's outcome asks and the scan goes on;
on the first channel that gives the flag byte and an address the device is found; with none the search is exhausted. -/
def Obligations.FindFirstDeviceOutcome : Prop :=
  (∀ (s : State) (sid : Nat), 1 ≤ s.cfg.maxChannels → s.ready.length = s.cfg.maxChannels →
    Accepted s (.findFirstDevice sid) sid →
    ∃ t, exec (.findFirstDevice sid) s = .next t ∧ ResultOk t sid ∧ t.cursor < s.cfg.maxChannels ∧
      ((t.session sid).result.rbool = true → t.sstate = .found ∧ t.addrValid = true ∧ t.readyAt t.cursor = true) ∧
      ((t.session sid).result.rbool = false →
        t.sstate = .exhausted ∧ t.cursor = 0 ∧ t.addrValid = false ∧ t.lastAddr = s.lastAddr) ∧
      (framesSent s t).take s.cfg.maxChannels =
        (List.range s.cfg.maxChannels).map (fun c => [s.cfg.marker, byteOf c, s.cfg.opc.pingChannel, 0]) ∧
      (framesSent s t).length ≤ 3 * s.cfg.maxChannels ∧
      SameMemory s t ∧ SameTokens s t ∧ SameOthers sid s t ∧ SamePort s t ∧ Idle t) ∧
  (∀ (s u v : State) (sid d : Nat) (reply : List Byte) (sent : List (List Byte)) (recs : List LogRec),
    s.ready.length = s.cfg.maxChannels → Accepted s (.findFirstDevice sid) sid → d < s.cfg.maxChannels →
    ScanMissed sid .findFirstDevice (afterProbe s) (List.range d) u sent recs → u.readyAt d = true →
    FindHit u v d .findFirst reply →
    ∃ t pings, exec (.findFirstDevice sid) s = .next t ∧ ResultOk t sid ∧ (t.session sid).result.rbool = true ∧
      t.sstate = .found ∧ t.addrValid = true ∧ t.cursor = d ∧
      reply.take 8 <+: [t.lastAddr.b0, t.lastAddr.b1, t.lastAddr.b2, t.lastAddr.b3, t.lastAddr.b4, t.lastAddr.b5,
        t.lastAddr.b6, t.lastAddr.b7] ∧
      framesSent s t =
        (List.range s.cfg.maxChannels).map (fun c => [s.cfg.marker, byteOf c, s.cfg.opc.pingChannel, 0]) ++ sent ++
          [[s.cfg.marker, byteOf d, s.cfg.opc.findFirst, 0], [s.cfg.marker, byteOf d, s.cfg.opc.getAddress, 0]] ∧
      t.log = s.log ++ pings ++ recs ∧ pings.length = s.cfg.maxChannels ∧ t.ready = u.ready ∧ t.tr = v.tr) ∧
  (∀ (s u : State) (sid : Nat) (sent : List (List Byte)) (recs : List LogRec),
    s.ready.length = s.cfg.maxChannels → Accepted s (.findFirstDevice sid) sid →
    ScanMissed sid .findFirstDevice (afterProbe s) (List.range s.cfg.maxChannels) u sent recs →
    ∃ t pings, exec (.findFirstDevice sid) s = .next t ∧ ResultOk t sid ∧ (t.session sid).result.rbool = false ∧
      framesSent s t =
        (List.range s.cfg.maxChannels).map (fun c => [s.cfg.marker, byteOf c, s.cfg.opc.pingChannel, 0]) ++ sent ∧
      t.log = s.log ++ pings ++ recs ∧ pings.length = s.cfg.maxChannels ∧ t.ready = u.ready ∧ t.tr = u.tr)

/-- R223, R164, R222, R228, R132, R134, R23: findFirstDevice records the find. The device answers every ping, with SUCCESS on
the channels of `up` and with the failure status on the others; `c` is the first channel of `up`, and there it answers
FIND_FIRST with the flag byte and GET_ADDRESS with `reply`. Then the search ends `Found` on `c`, the address recorded is
the one fetched, byte `i` of it payload byte `i`; exactly the channels of `up` are ready, and after the pings only `c` is
asked. (Lengths are those of `RESP_LEN`; nothing is said of an address byte that a shorter payload does not hold, log entry
16.) -/
def Obligations.FindFirstDeviceRecordsTheFind : Prop :=
  ∀ (s : State) (sid c : Nat) (up : Nat → Bool) (pong reply : List Byte), s.cfg.Wf →
    s.ready.length = s.cfg.maxChannels → Accepted s (.findFirstDevice sid) sid → c < s.cfg.maxChannels →
    up c = true → (∀ x, x < c → up x = false) → pong.length = s.cfg.respLen.pingChannel.toNat →
    s.cfg.respLen.findFirst = 1 → reply.length = s.cfg.respLen.getAddress.toNat →
    AnswersInTurn s (s.cfg.maxChannels + 2)
      ((List.range s.cfg.maxChannels).flatMap (fun x =>
          if up x then encodeResponse (byteOf x) s.cfg.stSuccess pong
          else encodeResponse (byteOf x) s.cfg.stFailure []) ++
        ([byteOf c, s.cfg.stSuccess, 1, s.cfg.flagByte] ++ encodeResponse (byteOf c) s.cfg.stSuccess reply)) →
    ∃ t, exec (.findFirstDevice sid) s = .next t ∧ ResultOk t sid ∧ (t.session sid).result.rbool = true ∧
      t.sstate = .found ∧ t.addrValid = true ∧ t.cursor = c ∧
      reply.take 8 <+: [t.lastAddr.b0, t.lastAddr.b1, t.lastAddr.b2, t.lastAddr.b3, t.lastAddr.b4, t.lastAddr.b5,
        t.lastAddr.b6, t.lastAddr.b7] ∧
      (∀ x, t.readyAt x = true ↔ (x < s.cfg.maxChannels ∧ up x = true)) ∧
      framesSent s t =
        (List.range s.cfg.maxChannels).map (fun x => [s.cfg.marker, byteOf x, s.cfg.opc.pingChannel, 0]) ++
          [[s.cfg.marker, byteOf c, s.cfg.opc.findFirst, 0], [s.cfg.marker, byteOf c, s.cfg.opc.getAddress, 0]] ∧
      SameMemory s t ∧ SameTokens s t ∧ SameOthers sid s t ∧ SamePort s t ∧ Idle t

/-- R224, R228, R133, R134, R23: findNextDevice stays on its channel when the device reports another one there, and the
address fetched is the one recorded, byte `i` of it payload byte `i`. (Lengths are those of `RESP_LEN`; for a flag that is
not one byte no result is stated, and nothing is said of an address byte that a shorter payload does not hold: log entry
16.) -/
def Obligations.FindNextDeviceStaysOnChannel : Prop :=
  ∀ (s : State) (sid : Nat) (reply : List Byte), s.cfg.Wf → Accepted s (.findNextDevice sid) sid →
    s.readyAt s.cursor = true → s.cfg.respLen.findNext = 1 → reply.length = s.cfg.respLen.getAddress.toNat →
    AnswersTwice s ([byteOf s.cursor, s.cfg.stSuccess, 1, s.cfg.flagByte] ++
      encodeResponse (byteOf s.cursor) s.cfg.stSuccess reply) →
    ∃ t, exec (.findNextDevice sid) s = .next t ∧ ResultOk t sid ∧ (t.session sid).result.rbool = true ∧
      t.sstate = .found ∧ t.addrValid = true ∧
      reply.take 8 <+: [t.lastAddr.b0, t.lastAddr.b1, t.lastAddr.b2, t.lastAddr.b3, t.lastAddr.b4, t.lastAddr.b5,
        t.lastAddr.b6, t.lastAddr.b7] ∧
      t.cursor = s.cursor ∧ t.ready = s.ready ∧ t.log = s.log ∧
      framesSent s t = [[s.cfg.marker, byteOf s.cursor, s.cfg.opc.findNext, 0],
        [s.cfg.marker, byteOf s.cursor, s.cfg.opc.getAddress, 0]] ∧
      SameMemory s t ∧ SameTokens s t ∧ SameOthers sid s t ∧ SamePort s t ∧ Idle t

/-- R224, R226, R227, R222: findNextDevice never ends with an error; without a hit it ends `Exhausted` with the cursor at
0 and the stale address kept; it moves only to a later channel, never probes, and sends at most
`2 + 2 * (MAX_CHANNELS - 1 - cursor)` frames. And where the cursor's channel is not ready, or FIND_NEXT there is answered
with another flag or fails, FIND_FIRST goes to the ready channels after it in ascending order: those before `d` answer
with another flag, and on `d`, which answers with the flag byte and then with an address, the device is found and that
address recorded, byte `i` of it payload byte `i` (R23). The same, last, told by what the exchanges give: a channel on which
FIND_NEXT or FIND_FIRST is answered with another flag or fails, or GET_ADDRESS fails, is logged and downgraded as that
exchange's outcome asks and the scan goes on (R228, R265); with no device on any channel the search is exhausted. -/
def Obligations.FindNextDeviceOutcome : Prop :=
  (∀ (s : State) (sid : Nat), s.cursor < s.cfg.maxChannels → Accepted s (.findNextDevice sid) sid →
    ∃ t, exec (.findNextDevice sid) s = .next t ∧ ResultOk t sid ∧ t.cursor < s.cfg.maxChannels ∧
      ((t.session sid).result.rbool = true →
        t.sstate = .found ∧ t.addrValid = true ∧ s.cursor ≤ t.cursor ∧ t.readyAt t.cursor = true) ∧
      ((t.session sid).result.rbool = false →
        t.sstate = .exhausted ∧ t.cursor = 0 ∧ t.addrValid = s.addrValid ∧ t.lastAddr = s.lastAddr) ∧
      (∀ x, t.readyAt x = true → s.readyAt x = true) ∧
      (framesSent s t).length ≤ 2 + 2 * (s.cfg.maxChannels - 1 - s.cursor) ∧
      SameMemory s t ∧ SameTokens s t ∧ SameOthers sid s t ∧ SamePort s t ∧ Idle t) ∧
  (∀ (s u : State) (sid d : Nat) (flag : Nat → Byte) (reply : List Byte) (sent : List (List Byte))
    (recs : List LogRec) (between : List Nat), s.cfg.Wf → Accepted s (.findNextDevice sid) sid →
    FindNextMissed s u sid sent recs → s.cfg.respLen.findFirst = 1 →
    reply.length = s.cfg.respLen.getAddress.toNat → s.cursor < d → d < s.cfg.maxChannels → s.readyAt d = true →
    between = (List.range' (s.cursor + 1) (d - (s.cursor + 1))).filter s.readyAt →
    (∀ x ∈ between, flag x ≠ s.cfg.flagByte) →
    AnswersInTurn u (between.length + 2) (between.flatMap (fun x => [byteOf x, s.cfg.stSuccess, 1, flag x]) ++
      ([byteOf d, s.cfg.stSuccess, 1, s.cfg.flagByte] ++ encodeResponse (byteOf d) s.cfg.stSuccess reply)) →
    ∃ t, exec (.findNextDevice sid) s = .next t ∧ ResultOk t sid ∧ (t.session sid).result.rbool = true ∧
      t.sstate = .found ∧ t.addrValid = true ∧ t.cursor = d ∧
      reply.take 8 <+: [t.lastAddr.b0, t.lastAddr.b1, t.lastAddr.b2, t.lastAddr.b3, t.lastAddr.b4, t.lastAddr.b5,
        t.lastAddr.b6, t.lastAddr.b7] ∧
      framesSent s t = sent ++ between.map (fun x => [s.cfg.marker, byteOf x, s.cfg.opc.findFirst, 0]) ++
        [[s.cfg.marker, byteOf d, s.cfg.opc.findFirst, 0], [s.cfg.marker, byteOf d, s.cfg.opc.getAddress, 0]] ∧
      t.log = s.log ++ recs ∧ t.ready = u.ready ∧ SameMemory s t ∧ SameTokens s t ∧ SameOthers sid s t ∧
      SamePort s t ∧ Idle t) ∧
  (∀ (s u v w : State) (sid d : Nat) (reply : List Byte) (sent sent' : List (List Byte)) (recs recs' : List LogRec),
    Accepted s (.findNextDevice sid) sid → FindNextMissed s u sid sent recs → s.cursor < d → d < s.cfg.maxChannels →
    ScanMissed sid .findNextDevice u (List.range' (s.cursor + 1) (d - (s.cursor + 1))) v sent' recs' →
    v.readyAt d = true → FindHit v w d .findFirst reply →
    ∃ t, exec (.findNextDevice sid) s = .next t ∧ ResultOk t sid ∧ (t.session sid).result.rbool = true ∧
      t.sstate = .found ∧ t.addrValid = true ∧ t.cursor = d ∧
      reply.take 8 <+: [t.lastAddr.b0, t.lastAddr.b1, t.lastAddr.b2, t.lastAddr.b3, t.lastAddr.b4, t.lastAddr.b5,
        t.lastAddr.b6, t.lastAddr.b7] ∧
      framesSent s t = sent ++ sent' ++
        [[s.cfg.marker, byteOf d, s.cfg.opc.findFirst, 0], [s.cfg.marker, byteOf d, s.cfg.opc.getAddress, 0]] ∧
      t.log = s.log ++ recs ++ recs' ∧ t.ready = v.ready ∧ t.tr = w.tr) ∧
  (∀ (s u v : State) (sid : Nat) (sent sent' : List (List Byte)) (recs recs' : List LogRec),
    Accepted s (.findNextDevice sid) sid → FindNextMissed s u sid sent recs →
    ScanMissed sid .findNextDevice u
      (List.range' (s.cursor + 1) (s.cfg.maxChannels - (s.cursor + 1))) v sent' recs' →
    ∃ t, exec (.findNextDevice sid) s = .next t ∧ ResultOk t sid ∧ (t.session sid).result.rbool = false ∧
      framesSent s t = sent ++ sent' ∧ t.log = s.log ++ recs ++ recs' ∧ t.ready = v.ready ∧ t.tr = v.tr)

/-- R225, R71: getAddress copies the last discovered address to the region it names and to no other byte; with no valid
address it still is `OK`, and the eight bytes are not said. -/
def Obligations.GetAddressDelivers : Prop :=
  ∀ (s : State) (sid off : Nat), Memory.wf s.buf = true → Accepted s (.getAddress sid off) sid →
    ∃ t, exec (.getAddress sid off) s = .next t ∧ ResultOk t sid ∧
      (s.addrValid = true → memRead t off 8 = [s.lastAddr.b0, s.lastAddr.b1, s.lastAddr.b2, s.lastAddr.b3,
        s.lastAddr.b4, s.lastAddr.b5, s.lastAddr.b6, s.lastAddr.b7]) ∧
      (∀ a, (a < off ∨ off + 8 ≤ a) → Memory.read t.buf a = Memory.read s.buf a) ∧
      t.tr = s.tr ∧ TransferKept sid s t

/-! The arbiter. -/

/-- R242, R59: with the flag free, a session that does not hold the token gets it at once, blocking or not; nothing but
its own state, its result and the flag changes, whether or not the sequencer is busy (R96). -/
def Obligations.BeginExclusiveAcquiresFreeFlag : Prop :=
  ∀ (s : State) (sid : Nat) (blocking : Bool), wellFormed s.cfg (.beginExclusive sid blocking) = true →
    sid < s.sessions.length → (s.session sid).holds = false → s.excl = false →
    ∃ t, exec (.beginExclusive sid blocking) s = .next t ∧ ResultOk t sid ∧ (t.session sid).result.rbool = true ∧
      (t.session sid).holds = true ∧ (t.session sid).astate = .idle ∧ t.excl = true ∧ t.ready = s.ready ∧
      t.seq = s.seq ∧ t.tr = s.tr ∧ t.log = s.log ∧ SameSearch s t ∧ SameMemory s t ∧ SameOthers sid s t ∧
      SamePort s t

/-- R242, R245, R248: with the flag taken by another, a non-blocking request is `OK(false)`, a blocking one gives no
result and polls; a polling session's attempt, whether or not the sequencer is busy, fails while the flag is taken and
acquires once it is free. -/
def Obligations.BeginExclusiveWaitsForTakenFlag : Prop :=
  ∀ (s : State) (sid : Nat), wellFormed s.cfg (.beginExclusive sid true) = true → sid < s.sessions.length →
    (s.session sid).holds = false → s.excl = true →
    (∃ t, exec (.beginExclusive sid false) s = .next t ∧ ResultOk t sid ∧ (t.session sid).result.rbool = false ∧
      (t.session sid).holds = false ∧ t.excl = true ∧ SameOthers sid s t) ∧
    (∃ t, exec (.beginExclusive sid true) s = .next t ∧ (t.session sid).astate = .polling ∧
      (t.session sid).result = (s.session sid).result ∧ (t.session sid).holds = false ∧ t.excl = true ∧
      SameOthers sid s t ∧
      ∀ rest : List Event,
        (∃ u, step ((t.setAgenda (.attempt sid :: rest)).setExcl true) = .next u ∧
          (u.session sid).astate = .polling ∧ (u.session sid).holds = false) ∧
        (∃ u, step ((t.setAgenda (.attempt sid :: rest)).setExcl false) = .next u ∧ ResultOk u sid ∧
          (u.session sid).result.rbool = true ∧ (u.session sid).holds = true ∧
          (u.session sid).astate = .idle ∧ u.excl = true ∧ u.agenda = rest))

/-- R247: no nesting. -/
def Obligations.BeginExclusiveDoesNotNest : Prop :=
  ∀ (s : State) (sid : Nat) (blocking : Bool), wellFormed s.cfg (.beginExclusive sid blocking) = true →
    sid < s.sessions.length → (s.session sid).holds = true →
    ∃ t, exec (.beginExclusive sid blocking) s = .next t ∧ ResultOk t sid ∧ (t.session sid).result.rbool = true ∧
      SameTokens s t ∧
      ∃ u, exec (.endExclusive sid) t = .next u ∧ (u.session sid).holds = false ∧ u.excl = false

/-- R243: endExclusive releases the flag exactly if its session holds it; otherwise it changes nothing but its own
result, another session's hold least of all. -/
def Obligations.EndExclusiveReleasesOnlyOwnHold : Prop :=
  ∀ (s : State) (sid : Nat), wellFormed s.cfg (.endExclusive sid) = true → sid < s.sessions.length →
    ∃ t, exec (.endExclusive sid) s = .next t ∧ ResultOk t sid ∧ (t.session sid).holds = false ∧
      (t.session sid).astate = (s.session sid).astate ∧
      t.excl = (if (s.session sid).holds then false else s.excl) ∧ SameOthers sid s t ∧ t.ready = s.ready ∧
      t.seq = s.seq ∧ t.tr = s.tr ∧ t.log = s.log ∧ SameSearch s t ∧ SameMemory s t ∧ SamePort s t

/-- R244: mutual exclusion over every run that starts in a state of the invariant: at most one holder, and the flag is
set while there is one. -/
def Obligations.AtMostOneHolderInEveryRun : Prop :=
  ∀ (k : Nat) (s t : State), Inv s → Sys2Proof.core.run k s = .next t →
    (∀ a b, (t.session a).holds = true → (t.session b).holds = true → a = b) ∧
      ∀ a, (t.session a).holds = true → t.excl = true

/-- R246, R274: the token guards nothing. Every instruction but the arbiter's two does the same, and answers the same,
in a state whose tokens have been put away. -/
def Obligations.TokenGuardsNoOtherInstruction : Prop :=
  ∀ (s : State) (i : Instr), isArbiterOp i = false →
    exec i (forgetTokens s) =
      (match exec i s with
       | .next t => .next (forgetTokens t)
       | .fault r => .fault r
       | .refused r => .refused r)

/-! The machine as a whole. -/

/-- R51, R50: what is written to `BUF` is read back, no byte outside the run changes, and the canonical form stays. -/
def Obligations.BufferReadsBackWhatWasWritten : Prop :=
  ∀ (s : State) (addr : Nat) (v : List Byte), Memory.wf s.buf = true →
    memRead (memWrite s addr v) addr v.length = v ∧
    (∀ a, (a < addr ∨ addr + v.length ≤ a) → Memory.read (memWrite s addr v).buf a = Memory.read s.buf a) ∧
    Memory.wf (memWrite s addr v).buf = true

/-- R38, R21: a register changes only under an operation of its row of the writer list. A ready flag is set only by the
two operations that probe, and changes under any other only with the downgrade on (which causes downgrade is
`DowngradeOnCommunicationErrorsOnly`'s). -/
def Obligations.RegistersHaveOnlyTheirWriters : Prop :=
  ∀ (s t : State) (i : Instr), exec i s = .next t →
    (t.cursor ≠ s.cursor → hostOpOf i ∈ [some .adapterDetected, some .findFirstDevice, some .findNextDevice,
      some .isPresent, some .freePort]) ∧
    (t.lastAddr ≠ s.lastAddr → hostOpOf i ∈ [some .findFirstDevice, some .findNextDevice]) ∧
    (t.addrValid ≠ s.addrValid → hostOpOf i ∈ [some .findFirstDevice, some .findNextDevice, some .adapterDetected,
      some .freePort]) ∧
    (t.sstate ≠ s.sstate → hostOpOf i ∈ [some .adapterDetected, some .findFirstDevice, some .findNextDevice,
      some .freePort]) ∧
    (¬SameTokens s t → hostOpOf i ∈ [some .beginExclusive, some .endExclusive]) ∧
    (t.buf ≠ s.buf → hostOpOf i ∈ [some .dataBlock, some .getAddress]) ∧
    ((∃ x, t.readyAt x = true ∧ s.readyAt x = false) →
      hostOpOf i ∈ [some .adapterDetected, some .findFirstDevice]) ∧
    (t.ready ≠ s.ready → hostOpOf i ∈ [some .adapterDetected, some .findFirstDevice] ∨ s.cfg.downgrade = true) ∧
    (t.log ≠ s.log → hostOpOf i ∈ [some .adapterDetected, some .findFirstDevice, some .findNextDevice,
      some .isPresent, some .select, some .setSearchOnlyAlarmingDevices, some .setNoResetSearch,
      some .setSearchAllDevices, some .targetFamily, some .targetAllFamilies]) ∧
    t.cfg = s.cfg ∧ t.agenda = s.agenda ∧ t.hreq = s.hreq

/-- R264: no operation that gives a result (which uses up a draw) ends with an error kind that its row does not list. -/
def Obligations.OperationsEndOnlyWithTheirKinds : Prop :=
  ∀ (s t : State) (i : Instr) (sid : Nat) (op : HostOp), exec i s = .next t → hostOpOf i = some op →
    sessionOf i = some sid → Accepted s i sid → t.draws ≠ s.draws →
    (op ∈ [.freePort, .adapterDetected, .findFirstDevice, .findNextDevice, .getAddress,
      .setSearchOnlyAlarmingDevices, .setNoResetSearch, .setSearchAllDevices, .targetFamily, .targetAllFamilies,
      .beginExclusive, .endExclusive] → (t.session sid).result.status ≠ .err) ∧
    (op = .selectPort → (t.session sid).result.kind ∈ [none, some .connection]) ∧
    (op = .reset → (t.session sid).result.kind ∈ [none, some .communication]) ∧
    (op ∈ [.putBit, .getBit, .putByte, .getByte, .getBlock, .dataBlock, .isPresent, .select] →
      (t.session sid).result.kind ∈ [none, some .communication, some .protocol, some .remoteFailure]) ∧
    (op ∈ [.isPresent, .select] → s.cfg.presencePolicy = .asNotFound → (t.session sid).result.status ≠ .err)

/-- R161: but for PING_CHANNEL and the operations that run the probe, no instruction sends a frame to a channel that is
not ready; and after the pings of its own probe findFirstDevice sends none to a channel whose ping is not recorded as
`Ok`. (adapterDetected sends nothing but pings: `AdapterDetectedProbesEverySlot`.) -/
def Obligations.NoFrameGoesToUnreadyChannels : Prop :=
  (∀ (s t : State) (i : Instr) (frame : List Byte), exec i s = .next t → s.ready.length ≤ 256 →
    hostOpOf i ∉ [some .adapterDetected, some .findFirstDevice] → (∀ ch, i ≠ .cmdPingChannel ch) →
    frame ∈ framesSent s t →
    ∃ c cmdbyte len pay, frame = s.cfg.marker :: c :: cmdbyte :: len :: pay ∧ s.readyAt c.toNat = true) ∧
  (∀ (s t : State) (sid : Nat), exec (.findFirstDevice sid) s = .next t → s.cfg.Wf →
    s.ready.length = s.cfg.maxChannels →
    ∃ recs, t.log = s.log ++ recs ∧ ∀ frame ∈ (framesSent s t).drop s.cfg.maxChannels,
      ∃ c cmdbyte len pay, frame = s.cfg.marker :: c :: cmdbyte :: len :: pay ∧
        ∃ rec ∈ recs, rec.ch = c.toNat ∧ rec.cmd = .pingChannel ∧ rec.outcome = .ok)

/-- R63, R119, R120: the boundary calls of one exchange, in their order: the write; then, if it succeeded, the flush;
then, if that succeeded, the settling wait and the header read; then, if the header came whole with a nonzero length,
one read of exactly that length. -/
def Obligations.ExchangeCallsAreInOrder : Prop :=
  ∀ (s : State) (ch : Byte) (cmd : WireCmd) (pay : List Byte) (explen : Nat),
    ∃ es, (exchange ch cmd pay explen s).2.tr.link = s.tr.link ++ es ∧
      (es = [.write (wireFrame s.cfg ch cmd pay) false] ∨
       es = [.write (wireFrame s.cfg ch cmd pay) true, .flush false] ∨
       (∃ hdr, es = [.write (wireFrame s.cfg ch cmd pay) true, .flush true, .wait (settleMs s.cfg cmd),
           .read 3 hdr] ∧ (hdr.length < 3 ∨ hdr.getD 2 0 = 0)) ∨
       (∃ hdr got, es = [.write (wireFrame s.cfg ch cmd pay) true, .flush true, .wait (settleMs s.cfg cmd),
           .read 3 hdr, .read (hdr.getD 2 0).toNat got] ∧ hdr.length = 3 ∧ hdr.getD 2 0 ≠ 0))

/-- R120: what an exchange gives back: a payload of the expected length, or one of its seven causes. -/
def Obligations.ExchangeResultIsPayloadOrCause : Prop :=
  ∀ (s : State) (ch : Byte) (cmd : WireCmd) (pay : List Byte) (explen : Nat),
    (∃ p, (exchange ch cmd pay explen s).1 = .ok p ∧ p.length = explen) ∨
    ∃ cause info, (exchange ch cmd pay explen s).1 = .err cause info ∧
      cause ∈ [.writeFail, .shortHeader, .shortPayload, .lengthMismatch, .channelMismatch, .statusFailure,
        .statusOther]

/-- R121: the failed-communication downgrade clears the ready flag of the exchange's channel on exactly the four causes
of the CommunicationError kind, with the switch on, and nothing else of the table. -/
def Obligations.DowngradeOnCommunicationErrorsOnly : Prop :=
  ∀ (s : State) (c : Nat) (cmd : WireCmd) (pay : List Byte) (explen : Nat),
    (exchangeCh c cmd pay explen s).1 = (exchange (byteOf c) cmd pay explen s).1 ∧
    (∀ x, (exchangeCh c cmd pay explen s).2.readyAt x = true ↔
      (s.readyAt x = true ∧ ¬(x = c ∧ s.cfg.downgrade = true ∧
        ∃ cause info, (exchange (byteOf c) cmd pay explen s).1 = .err cause info ∧ kindOf cause = .communication)))

/-- R122: no resynchronisation. Whatever the instruction, the receive stream loses bytes only from its front, only those
that reads returned, and otherwise only grows at its end. (For selectPort and freePort it is the model's choice that what
the transport's owner makes of the stream is an event of its own: log entry 26.) -/
def Obligations.ReceiveStreamIsNeverResynchronised : Prop :=
  ∀ (s t : State) (i : Instr), exec i s = .next t →
    ∃ arrived, s.tr.rx ++ arrived = readBytes (newEvents s t) ++ t.tr.rx

/-- R314, R122: a late answer poisons the next exchange. Where the stream holds a stale frame of the right channel,
status and length, getByte reports its byte as `OK` and what arrives meanwhile, the true answer, stays unread. -/
def Obligations.StaleAnswerIsDeliveredAsResult : Prop :=
  ∀ (s : State) (sid : Nat) (stale fresh : List Byte), s.cfg.Wf → Accepted s (.getByte sid) sid →
    s.readyAt s.cursor = true → s.tr.writeAns.head? = some true → s.tr.flushAns.head? = some true →
    stale.length = s.cfg.respLen.getByte.toNat →
    s.tr.rx = encodeResponse (byteOf s.cursor) s.cfg.stSuccess stale → s.tr.arrivals.take 2 = [fresh, []] →
    ∃ t, exec (.getByte sid) s = .next t ∧ ResultOk t sid ∧
      (∀ b, stale = [b] → (t.session sid).result.rbyte = b) ∧ t.tr.rx = fresh

/-- R335: the end of a run. Once it is over, nothing that other agents may still do (bytes arriving, the stream left
otherwise, a caller's store, a needless attempt, a reset) makes it not over: no call crosses the link any more, and no
session is told anything. -/
def Obligations.EndedRunsStayEnded : Prop :=
  ∀ s t : State, runOver s = true → step s = .next t →
    runOver t = true ∧ t.tr.link = s.tr.link ∧ t.cfg = s.cfg ∧
      (s.agenda.head? ≠ some .resetInput → t.sessions = s.sessions ∧ t.log = s.log ∧ t.ready = s.ready ∧
        t.excl = s.excl ∧ SameSearch s t)

end
end

