-- ==== Sys2Proof/Laws/State.lean ====
section
/-! SUPPORT. One lemma for each field and each named update of the state, true by rfl, so that no proof unfolds a
record update; and the reads that go through an accessor. -/

namespace Sys2Proof.Machine

@[simp] theorem setReady_cfg (s : State) (c : Nat) (b : Bool) : (s.setReady c b).cfg = s.cfg := rfl
@[simp] theorem setReady_ready (s : State) (c : Nat) (b : Bool) : (s.setReady c b).ready = s.ready.set c b := rfl
@[simp] theorem setReady_cursor (s : State) (c : Nat) (b : Bool) : (s.setReady c b).cursor = s.cursor := rfl
@[simp] theorem setReady_lastAddr (s : State) (c : Nat) (b : Bool) : (s.setReady c b).lastAddr = s.lastAddr := rfl
@[simp] theorem setReady_addrValid (s : State) (c : Nat) (b : Bool) : (s.setReady c b).addrValid = s.addrValid := rfl
@[simp] theorem setReady_sstate (s : State) (c : Nat) (b : Bool) : (s.setReady c b).sstate = s.sstate := rfl
@[simp] theorem setReady_sessions (s : State) (c : Nat) (b : Bool) : (s.setReady c b).sessions = s.sessions := rfl
@[simp] theorem setReady_excl (s : State) (c : Nat) (b : Bool) : (s.setReady c b).excl = s.excl := rfl
@[simp] theorem setReady_seq (s : State) (c : Nat) (b : Bool) : (s.setReady c b).seq = s.seq := rfl
@[simp] theorem setReady_hreq (s : State) (c : Nat) (b : Bool) : (s.setReady c b).hreq = s.hreq := rfl
@[simp] theorem setReady_buf (s : State) (c : Nat) (b : Bool) : (s.setReady c b).buf = s.buf := rfl
@[simp] theorem setReady_log (s : State) (c : Nat) (b : Bool) : (s.setReady c b).log = s.log := rfl
@[simp] theorem setReady_tr (s : State) (c : Nat) (b : Bool) : (s.setReady c b).tr = s.tr := rfl
@[simp] theorem setReady_agenda (s : State) (c : Nat) (b : Bool) : (s.setReady c b).agenda = s.agenda := rfl
@[simp] theorem setReady_draws (s : State) (c : Nat) (b : Bool) : (s.setReady c b).draws = s.draws := rfl
@[simp] theorem setReady_session (s : State) (c : Nat) (b : Bool) (x : Nat) : (s.setReady c b).session x = s.session x := rfl

@[simp] theorem setCursor_cfg (s : State) (c : Nat) : (s.setCursor c).cfg = s.cfg := rfl
@[simp] theorem setCursor_ready (s : State) (c : Nat) : (s.setCursor c).ready = s.ready := rfl
@[simp] theorem setCursor_cursor (s : State) (c : Nat) : (s.setCursor c).cursor = c := rfl
@[simp] theorem setCursor_lastAddr (s : State) (c : Nat) : (s.setCursor c).lastAddr = s.lastAddr := rfl
@[simp] theorem setCursor_addrValid (s : State) (c : Nat) : (s.setCursor c).addrValid = s.addrValid := rfl
@[simp] theorem setCursor_sstate (s : State) (c : Nat) : (s.setCursor c).sstate = s.sstate := rfl
@[simp] theorem setCursor_sessions (s : State) (c : Nat) : (s.setCursor c).sessions = s.sessions := rfl
@[simp] theorem setCursor_excl (s : State) (c : Nat) : (s.setCursor c).excl = s.excl := rfl
@[simp] theorem setCursor_seq (s : State) (c : Nat) : (s.setCursor c).seq = s.seq := rfl
@[simp] theorem setCursor_hreq (s : State) (c : Nat) : (s.setCursor c).hreq = s.hreq := rfl
@[simp] theorem setCursor_buf (s : State) (c : Nat) : (s.setCursor c).buf = s.buf := rfl
@[simp] theorem setCursor_log (s : State) (c : Nat) : (s.setCursor c).log = s.log := rfl
@[simp] theorem setCursor_tr (s : State) (c : Nat) : (s.setCursor c).tr = s.tr := rfl
@[simp] theorem setCursor_agenda (s : State) (c : Nat) : (s.setCursor c).agenda = s.agenda := rfl
@[simp] theorem setCursor_draws (s : State) (c : Nat) : (s.setCursor c).draws = s.draws := rfl
@[simp] theorem setCursor_readyAt (s : State) (c : Nat) (x : Nat) : (s.setCursor c).readyAt x = s.readyAt x := rfl
@[simp] theorem setCursor_session (s : State) (c : Nat) (x : Nat) : (s.setCursor c).session x = s.session x := rfl

@[simp] theorem setAddr_cfg (s : State) (a : DevAddr) : (s.setAddr a).cfg = s.cfg := rfl
@[simp] theorem setAddr_ready (s : State) (a : DevAddr) : (s.setAddr a).ready = s.ready := rfl
@[simp] theorem setAddr_cursor (s : State) (a : DevAddr) : (s.setAddr a).cursor = s.cursor := rfl
@[simp] theorem setAddr_lastAddr (s : State) (a : DevAddr) : (s.setAddr a).lastAddr = a := rfl
@[simp] theorem setAddr_addrValid (s : State) (a : DevAddr) : (s.setAddr a).addrValid = true := rfl
@[simp] theorem setAddr_sstate (s : State) (a : DevAddr) : (s.setAddr a).sstate = s.sstate := rfl
@[simp] theorem setAddr_sessions (s : State) (a : DevAddr) : (s.setAddr a).sessions = s.sessions := rfl
@[simp] theorem setAddr_excl (s : State) (a : DevAddr) : (s.setAddr a).excl = s.excl := rfl
@[simp] theorem setAddr_seq (s : State) (a : DevAddr) : (s.setAddr a).seq = s.seq := rfl
@[simp] theorem setAddr_hreq (s : State) (a : DevAddr) : (s.setAddr a).hreq = s.hreq := rfl
@[simp] theorem setAddr_buf (s : State) (a : DevAddr) : (s.setAddr a).buf = s.buf := rfl
@[simp] theorem setAddr_log (s : State) (a : DevAddr) : (s.setAddr a).log = s.log := rfl
@[simp] theorem setAddr_tr (s : State) (a : DevAddr) : (s.setAddr a).tr = s.tr := rfl
@[simp] theorem setAddr_agenda (s : State) (a : DevAddr) : (s.setAddr a).agenda = s.agenda := rfl
@[simp] theorem setAddr_draws (s : State) (a : DevAddr) : (s.setAddr a).draws = s.draws := rfl
@[simp] theorem setAddr_readyAt (s : State) (a : DevAddr) (x : Nat) : (s.setAddr a).readyAt x = s.readyAt x := rfl
@[simp] theorem setAddr_session (s : State) (a : DevAddr) (x : Nat) : (s.setAddr a).session x = s.session x := rfl

@[simp] theorem clearAddr_cfg (s : State) : (s.clearAddr).cfg = s.cfg := rfl
@[simp] theorem clearAddr_ready (s : State) : (s.clearAddr).ready = s.ready := rfl
@[simp] theorem clearAddr_cursor (s : State) : (s.clearAddr).cursor = s.cursor := rfl
@[simp] theorem clearAddr_lastAddr (s : State) : (s.clearAddr).lastAddr = s.lastAddr := rfl
@[simp] theorem clearAddr_addrValid (s : State) : (s.clearAddr).addrValid = false := rfl
@[simp] theorem clearAddr_sstate (s : State) : (s.clearAddr).sstate = s.sstate := rfl
@[simp] theorem clearAddr_sessions (s : State) : (s.clearAddr).sessions = s.sessions := rfl
@[simp] theorem clearAddr_excl (s : State) : (s.clearAddr).excl = s.excl := rfl
@[simp] theorem clearAddr_seq (s : State) : (s.clearAddr).seq = s.seq := rfl
@[simp] theorem clearAddr_hreq (s : State) : (s.clearAddr).hreq = s.hreq := rfl
@[simp] theorem clearAddr_buf (s : State) : (s.clearAddr).buf = s.buf := rfl
@[simp] theorem clearAddr_log (s : State) : (s.clearAddr).log = s.log := rfl
@[simp] theorem clearAddr_tr (s : State) : (s.clearAddr).tr = s.tr := rfl
@[simp] theorem clearAddr_agenda (s : State) : (s.clearAddr).agenda = s.agenda := rfl
@[simp] theorem clearAddr_draws (s : State) : (s.clearAddr).draws = s.draws := rfl
@[simp] theorem clearAddr_readyAt (s : State) (x : Nat) : (s.clearAddr).readyAt x = s.readyAt x := rfl
@[simp] theorem clearAddr_session (s : State) (x : Nat) : (s.clearAddr).session x = s.session x := rfl

@[simp] theorem setSState_cfg (s : State) (st : SState) : (s.setSState st).cfg = s.cfg := rfl
@[simp] theorem setSState_ready (s : State) (st : SState) : (s.setSState st).ready = s.ready := rfl
@[simp] theorem setSState_cursor (s : State) (st : SState) : (s.setSState st).cursor = s.cursor := rfl
@[simp] theorem setSState_lastAddr (s : State) (st : SState) : (s.setSState st).lastAddr = s.lastAddr := rfl
@[simp] theorem setSState_addrValid (s : State) (st : SState) : (s.setSState st).addrValid = s.addrValid := rfl
@[simp] theorem setSState_sstate (s : State) (st : SState) : (s.setSState st).sstate = st := rfl
@[simp] theorem setSState_sessions (s : State) (st : SState) : (s.setSState st).sessions = s.sessions := rfl
@[simp] theorem setSState_excl (s : State) (st : SState) : (s.setSState st).excl = s.excl := rfl
@[simp] theorem setSState_seq (s : State) (st : SState) : (s.setSState st).seq = s.seq := rfl
@[simp] theorem setSState_hreq (s : State) (st : SState) : (s.setSState st).hreq = s.hreq := rfl
@[simp] theorem setSState_buf (s : State) (st : SState) : (s.setSState st).buf = s.buf := rfl
@[simp] theorem setSState_log (s : State) (st : SState) : (s.setSState st).log = s.log := rfl
@[simp] theorem setSState_tr (s : State) (st : SState) : (s.setSState st).tr = s.tr := rfl
@[simp] theorem setSState_agenda (s : State) (st : SState) : (s.setSState st).agenda = s.agenda := rfl
@[simp] theorem setSState_draws (s : State) (st : SState) : (s.setSState st).draws = s.draws := rfl
@[simp] theorem setSState_readyAt (s : State) (st : SState) (x : Nat) : (s.setSState st).readyAt x = s.readyAt x := rfl
@[simp] theorem setSState_session (s : State) (st : SState) (x : Nat) : (s.setSState st).session x = s.session x := rfl

@[simp] theorem updSession_cfg (s : State) (sid : Nat) (f : Session → Session) : (s.updSession sid f).cfg = s.cfg := rfl
@[simp] theorem updSession_ready (s : State) (sid : Nat) (f : Session → Session) : (s.updSession sid f).ready = s.ready := rfl
@[simp] theorem updSession_cursor (s : State) (sid : Nat) (f : Session → Session) : (s.updSession sid f).cursor = s.cursor := rfl
@[simp] theorem updSession_lastAddr (s : State) (sid : Nat) (f : Session → Session) : (s.updSession sid f).lastAddr = s.lastAddr := rfl
@[simp] theorem updSession_addrValid (s : State) (sid : Nat) (f : Session → Session) : (s.updSession sid f).addrValid = s.addrValid := rfl
@[simp] theorem updSession_sstate (s : State) (sid : Nat) (f : Session → Session) : (s.updSession sid f).sstate = s.sstate := rfl
@[simp] theorem updSession_sessions (s : State) (sid : Nat) (f : Session → Session) : (s.updSession sid f).sessions = s.sessions.modify sid f := rfl
@[simp] theorem updSession_excl (s : State) (sid : Nat) (f : Session → Session) : (s.updSession sid f).excl = s.excl := rfl
@[simp] theorem updSession_seq (s : State) (sid : Nat) (f : Session → Session) : (s.updSession sid f).seq = s.seq := rfl
@[simp] theorem updSession_hreq (s : State) (sid : Nat) (f : Session → Session) : (s.updSession sid f).hreq = s.hreq := rfl
@[simp] theorem updSession_buf (s : State) (sid : Nat) (f : Session → Session) : (s.updSession sid f).buf = s.buf := rfl
@[simp] theorem updSession_log (s : State) (sid : Nat) (f : Session → Session) : (s.updSession sid f).log = s.log := rfl
@[simp] theorem updSession_tr (s : State) (sid : Nat) (f : Session → Session) : (s.updSession sid f).tr = s.tr := rfl
@[simp] theorem updSession_agenda (s : State) (sid : Nat) (f : Session → Session) : (s.updSession sid f).agenda = s.agenda := rfl
@[simp] theorem updSession_draws (s : State) (sid : Nat) (f : Session → Session) : (s.updSession sid f).draws = s.draws := rfl
@[simp] theorem updSession_readyAt (s : State) (sid : Nat) (f : Session → Session) (x : Nat) : (s.updSession sid f).readyAt x = s.readyAt x := rfl

@[simp] theorem setExcl_cfg (s : State) (b : Bool) : (s.setExcl b).cfg = s.cfg := rfl
@[simp] theorem setExcl_ready (s : State) (b : Bool) : (s.setExcl b).ready = s.ready := rfl
@[simp] theorem setExcl_cursor (s : State) (b : Bool) : (s.setExcl b).cursor = s.cursor := rfl
@[simp] theorem setExcl_lastAddr (s : State) (b : Bool) : (s.setExcl b).lastAddr = s.lastAddr := rfl
@[simp] theorem setExcl_addrValid (s : State) (b : Bool) : (s.setExcl b).addrValid = s.addrValid := rfl
@[simp] theorem setExcl_sstate (s : State) (b : Bool) : (s.setExcl b).sstate = s.sstate := rfl
@[simp] theorem setExcl_sessions (s : State) (b : Bool) : (s.setExcl b).sessions = s.sessions := rfl
@[simp] theorem setExcl_excl (s : State) (b : Bool) : (s.setExcl b).excl = b := rfl
@[simp] theorem setExcl_seq (s : State) (b : Bool) : (s.setExcl b).seq = s.seq := rfl
@[simp] theorem setExcl_hreq (s : State) (b : Bool) : (s.setExcl b).hreq = s.hreq := rfl
@[simp] theorem setExcl_buf (s : State) (b : Bool) : (s.setExcl b).buf = s.buf := rfl
@[simp] theorem setExcl_log (s : State) (b : Bool) : (s.setExcl b).log = s.log := rfl
@[simp] theorem setExcl_tr (s : State) (b : Bool) : (s.setExcl b).tr = s.tr := rfl
@[simp] theorem setExcl_agenda (s : State) (b : Bool) : (s.setExcl b).agenda = s.agenda := rfl
@[simp] theorem setExcl_draws (s : State) (b : Bool) : (s.setExcl b).draws = s.draws := rfl
@[simp] theorem setExcl_readyAt (s : State) (b : Bool) (x : Nat) : (s.setExcl b).readyAt x = s.readyAt x := rfl
@[simp] theorem setExcl_session (s : State) (b : Bool) (x : Nat) : (s.setExcl b).session x = s.session x := rfl

@[simp] theorem setSeq_cfg (s : State) (q : Sequencer) : (s.setSeq q).cfg = s.cfg := rfl
@[simp] theorem setSeq_ready (s : State) (q : Sequencer) : (s.setSeq q).ready = s.ready := rfl
@[simp] theorem setSeq_cursor (s : State) (q : Sequencer) : (s.setSeq q).cursor = s.cursor := rfl
@[simp] theorem setSeq_lastAddr (s : State) (q : Sequencer) : (s.setSeq q).lastAddr = s.lastAddr := rfl
@[simp] theorem setSeq_addrValid (s : State) (q : Sequencer) : (s.setSeq q).addrValid = s.addrValid := rfl
@[simp] theorem setSeq_sstate (s : State) (q : Sequencer) : (s.setSeq q).sstate = s.sstate := rfl
@[simp] theorem setSeq_sessions (s : State) (q : Sequencer) : (s.setSeq q).sessions = s.sessions := rfl
@[simp] theorem setSeq_excl (s : State) (q : Sequencer) : (s.setSeq q).excl = s.excl := rfl
@[simp] theorem setSeq_seq (s : State) (q : Sequencer) : (s.setSeq q).seq = q := rfl
@[simp] theorem setSeq_hreq (s : State) (q : Sequencer) : (s.setSeq q).hreq = s.hreq := rfl
@[simp] theorem setSeq_buf (s : State) (q : Sequencer) : (s.setSeq q).buf = s.buf := rfl
@[simp] theorem setSeq_log (s : State) (q : Sequencer) : (s.setSeq q).log = s.log := rfl
@[simp] theorem setSeq_tr (s : State) (q : Sequencer) : (s.setSeq q).tr = s.tr := rfl
@[simp] theorem setSeq_agenda (s : State) (q : Sequencer) : (s.setSeq q).agenda = s.agenda := rfl
@[simp] theorem setSeq_draws (s : State) (q : Sequencer) : (s.setSeq q).draws = s.draws := rfl
@[simp] theorem setSeq_readyAt (s : State) (q : Sequencer) (x : Nat) : (s.setSeq q).readyAt x = s.readyAt x := rfl
@[simp] theorem setSeq_session (s : State) (q : Sequencer) (x : Nat) : (s.setSeq q).session x = s.session x := rfl

@[simp] theorem setHreq_cfg (s : State) (r : HostRequest) : (s.setHreq r).cfg = s.cfg := rfl
@[simp] theorem setHreq_ready (s : State) (r : HostRequest) : (s.setHreq r).ready = s.ready := rfl
@[simp] theorem setHreq_cursor (s : State) (r : HostRequest) : (s.setHreq r).cursor = s.cursor := rfl
@[simp] theorem setHreq_lastAddr (s : State) (r : HostRequest) : (s.setHreq r).lastAddr = s.lastAddr := rfl
@[simp] theorem setHreq_addrValid (s : State) (r : HostRequest) : (s.setHreq r).addrValid = s.addrValid := rfl
@[simp] theorem setHreq_sstate (s : State) (r : HostRequest) : (s.setHreq r).sstate = s.sstate := rfl
@[simp] theorem setHreq_sessions (s : State) (r : HostRequest) : (s.setHreq r).sessions = s.sessions := rfl
@[simp] theorem setHreq_excl (s : State) (r : HostRequest) : (s.setHreq r).excl = s.excl := rfl
@[simp] theorem setHreq_seq (s : State) (r : HostRequest) : (s.setHreq r).seq = s.seq := rfl
@[simp] theorem setHreq_hreq (s : State) (r : HostRequest) : (s.setHreq r).hreq = r := rfl
@[simp] theorem setHreq_buf (s : State) (r : HostRequest) : (s.setHreq r).buf = s.buf := rfl
@[simp] theorem setHreq_log (s : State) (r : HostRequest) : (s.setHreq r).log = s.log := rfl
@[simp] theorem setHreq_tr (s : State) (r : HostRequest) : (s.setHreq r).tr = s.tr := rfl
@[simp] theorem setHreq_agenda (s : State) (r : HostRequest) : (s.setHreq r).agenda = s.agenda := rfl
@[simp] theorem setHreq_draws (s : State) (r : HostRequest) : (s.setHreq r).draws = s.draws := rfl
@[simp] theorem setHreq_readyAt (s : State) (r : HostRequest) (x : Nat) : (s.setHreq r).readyAt x = s.readyAt x := rfl
@[simp] theorem setHreq_session (s : State) (r : HostRequest) (x : Nat) : (s.setHreq r).session x = s.session x := rfl

@[simp] theorem setBuf_cfg (s : State) (m : Memory) : (s.setBuf m).cfg = s.cfg := rfl
@[simp] theorem setBuf_ready (s : State) (m : Memory) : (s.setBuf m).ready = s.ready := rfl
@[simp] theorem setBuf_cursor (s : State) (m : Memory) : (s.setBuf m).cursor = s.cursor := rfl
@[simp] theorem setBuf_lastAddr (s : State) (m : Memory) : (s.setBuf m).lastAddr = s.lastAddr := rfl
@[simp] theorem setBuf_addrValid (s : State) (m : Memory) : (s.setBuf m).addrValid = s.addrValid := rfl
@[simp] theorem setBuf_sstate (s : State) (m : Memory) : (s.setBuf m).sstate = s.sstate := rfl
@[simp] theorem setBuf_sessions (s : State) (m : Memory) : (s.setBuf m).sessions = s.sessions := rfl
@[simp] theorem setBuf_excl (s : State) (m : Memory) : (s.setBuf m).excl = s.excl := rfl
@[simp] theorem setBuf_seq (s : State) (m : Memory) : (s.setBuf m).seq = s.seq := rfl
@[simp] theorem setBuf_hreq (s : State) (m : Memory) : (s.setBuf m).hreq = s.hreq := rfl
@[simp] theorem setBuf_buf (s : State) (m : Memory) : (s.setBuf m).buf = m := rfl
@[simp] theorem setBuf_log (s : State) (m : Memory) : (s.setBuf m).log = s.log := rfl
@[simp] theorem setBuf_tr (s : State) (m : Memory) : (s.setBuf m).tr = s.tr := rfl
@[simp] theorem setBuf_agenda (s : State) (m : Memory) : (s.setBuf m).agenda = s.agenda := rfl
@[simp] theorem setBuf_draws (s : State) (m : Memory) : (s.setBuf m).draws = s.draws := rfl
@[simp] theorem setBuf_readyAt (s : State) (m : Memory) (x : Nat) : (s.setBuf m).readyAt x = s.readyAt x := rfl
@[simp] theorem setBuf_session (s : State) (m : Memory) (x : Nat) : (s.setBuf m).session x = s.session x := rfl

@[simp] theorem addLog_cfg (s : State) (r : LogRec) : (s.addLog r).cfg = s.cfg := rfl
@[simp] theorem addLog_ready (s : State) (r : LogRec) : (s.addLog r).ready = s.ready := rfl
@[simp] theorem addLog_cursor (s : State) (r : LogRec) : (s.addLog r).cursor = s.cursor := rfl
@[simp] theorem addLog_lastAddr (s : State) (r : LogRec) : (s.addLog r).lastAddr = s.lastAddr := rfl
@[simp] theorem addLog_addrValid (s : State) (r : LogRec) : (s.addLog r).addrValid = s.addrValid := rfl
@[simp] theorem addLog_sstate (s : State) (r : LogRec) : (s.addLog r).sstate = s.sstate := rfl
@[simp] theorem addLog_sessions (s : State) (r : LogRec) : (s.addLog r).sessions = s.sessions := rfl
@[simp] theorem addLog_excl (s : State) (r : LogRec) : (s.addLog r).excl = s.excl := rfl
@[simp] theorem addLog_seq (s : State) (r : LogRec) : (s.addLog r).seq = s.seq := rfl
@[simp] theorem addLog_hreq (s : State) (r : LogRec) : (s.addLog r).hreq = s.hreq := rfl
@[simp] theorem addLog_buf (s : State) (r : LogRec) : (s.addLog r).buf = s.buf := rfl
@[simp] theorem addLog_log (s : State) (r : LogRec) : (s.addLog r).log = s.log ++ [r] := rfl
@[simp] theorem addLog_tr (s : State) (r : LogRec) : (s.addLog r).tr = s.tr := rfl
@[simp] theorem addLog_agenda (s : State) (r : LogRec) : (s.addLog r).agenda = s.agenda := rfl
@[simp] theorem addLog_draws (s : State) (r : LogRec) : (s.addLog r).draws = s.draws := rfl
@[simp] theorem addLog_readyAt (s : State) (r : LogRec) (x : Nat) : (s.addLog r).readyAt x = s.readyAt x := rfl
@[simp] theorem addLog_session (s : State) (r : LogRec) (x : Nat) : (s.addLog r).session x = s.session x := rfl

@[simp] theorem setTr_cfg (s : State) (t : Transport) : (s.setTr t).cfg = s.cfg := rfl
@[simp] theorem setTr_ready (s : State) (t : Transport) : (s.setTr t).ready = s.ready := rfl
@[simp] theorem setTr_cursor (s : State) (t : Transport) : (s.setTr t).cursor = s.cursor := rfl
@[simp] theorem setTr_lastAddr (s : State) (t : Transport) : (s.setTr t).lastAddr = s.lastAddr := rfl
@[simp] theorem setTr_addrValid (s : State) (t : Transport) : (s.setTr t).addrValid = s.addrValid := rfl
@[simp] theorem setTr_sstate (s : State) (t : Transport) : (s.setTr t).sstate = s.sstate := rfl
@[simp] theorem setTr_sessions (s : State) (t : Transport) : (s.setTr t).sessions = s.sessions := rfl
@[simp] theorem setTr_excl (s : State) (t : Transport) : (s.setTr t).excl = s.excl := rfl
@[simp] theorem setTr_seq (s : State) (t : Transport) : (s.setTr t).seq = s.seq := rfl
@[simp] theorem setTr_hreq (s : State) (t : Transport) : (s.setTr t).hreq = s.hreq := rfl
@[simp] theorem setTr_buf (s : State) (t : Transport) : (s.setTr t).buf = s.buf := rfl
@[simp] theorem setTr_log (s : State) (t : Transport) : (s.setTr t).log = s.log := rfl
@[simp] theorem setTr_tr (s : State) (t : Transport) : (s.setTr t).tr = t := rfl
@[simp] theorem setTr_agenda (s : State) (t : Transport) : (s.setTr t).agenda = s.agenda := rfl
@[simp] theorem setTr_draws (s : State) (t : Transport) : (s.setTr t).draws = s.draws := rfl
@[simp] theorem setTr_readyAt (s : State) (t : Transport) (x : Nat) : (s.setTr t).readyAt x = s.readyAt x := rfl
@[simp] theorem setTr_session (s : State) (t : Transport) (x : Nat) : (s.setTr t).session x = s.session x := rfl

@[simp] theorem setAgenda_cfg (s : State) (a : List Event) : (s.setAgenda a).cfg = s.cfg := rfl
@[simp] theorem setAgenda_ready (s : State) (a : List Event) : (s.setAgenda a).ready = s.ready := rfl
@[simp] theorem setAgenda_cursor (s : State) (a : List Event) : (s.setAgenda a).cursor = s.cursor := rfl
@[simp] theorem setAgenda_lastAddr (s : State) (a : List Event) : (s.setAgenda a).lastAddr = s.lastAddr := rfl
@[simp] theorem setAgenda_addrValid (s : State) (a : List Event) : (s.setAgenda a).addrValid = s.addrValid := rfl
@[simp] theorem setAgenda_sstate (s : State) (a : List Event) : (s.setAgenda a).sstate = s.sstate := rfl
@[simp] theorem setAgenda_sessions (s : State) (a : List Event) : (s.setAgenda a).sessions = s.sessions := rfl
@[simp] theorem setAgenda_excl (s : State) (a : List Event) : (s.setAgenda a).excl = s.excl := rfl
@[simp] theorem setAgenda_seq (s : State) (a : List Event) : (s.setAgenda a).seq = s.seq := rfl
@[simp] theorem setAgenda_hreq (s : State) (a : List Event) : (s.setAgenda a).hreq = s.hreq := rfl
@[simp] theorem setAgenda_buf (s : State) (a : List Event) : (s.setAgenda a).buf = s.buf := rfl
@[simp] theorem setAgenda_log (s : State) (a : List Event) : (s.setAgenda a).log = s.log := rfl
@[simp] theorem setAgenda_tr (s : State) (a : List Event) : (s.setAgenda a).tr = s.tr := rfl
@[simp] theorem setAgenda_agenda (s : State) (a : List Event) : (s.setAgenda a).agenda = a := rfl
@[simp] theorem setAgenda_draws (s : State) (a : List Event) : (s.setAgenda a).draws = s.draws := rfl
@[simp] theorem setAgenda_readyAt (s : State) (a : List Event) (x : Nat) : (s.setAgenda a).readyAt x = s.readyAt x := rfl
@[simp] theorem setAgenda_session (s : State) (a : List Event) (x : Nat) : (s.setAgenda a).session x = s.session x := rfl

@[simp] theorem bumpDraws_cfg (s : State) : (s.bumpDraws).cfg = s.cfg := rfl
@[simp] theorem bumpDraws_ready (s : State) : (s.bumpDraws).ready = s.ready := rfl
@[simp] theorem bumpDraws_cursor (s : State) : (s.bumpDraws).cursor = s.cursor := rfl
@[simp] theorem bumpDraws_lastAddr (s : State) : (s.bumpDraws).lastAddr = s.lastAddr := rfl
@[simp] theorem bumpDraws_addrValid (s : State) : (s.bumpDraws).addrValid = s.addrValid := rfl
@[simp] theorem bumpDraws_sstate (s : State) : (s.bumpDraws).sstate = s.sstate := rfl
@[simp] theorem bumpDraws_sessions (s : State) : (s.bumpDraws).sessions = s.sessions := rfl
@[simp] theorem bumpDraws_excl (s : State) : (s.bumpDraws).excl = s.excl := rfl
@[simp] theorem bumpDraws_seq (s : State) : (s.bumpDraws).seq = s.seq := rfl
@[simp] theorem bumpDraws_hreq (s : State) : (s.bumpDraws).hreq = s.hreq := rfl
@[simp] theorem bumpDraws_buf (s : State) : (s.bumpDraws).buf = s.buf := rfl
@[simp] theorem bumpDraws_log (s : State) : (s.bumpDraws).log = s.log := rfl
@[simp] theorem bumpDraws_tr (s : State) : (s.bumpDraws).tr = s.tr := rfl
@[simp] theorem bumpDraws_agenda (s : State) : (s.bumpDraws).agenda = s.agenda := rfl
@[simp] theorem bumpDraws_draws (s : State) : (s.bumpDraws).draws = s.draws + 1 := rfl
@[simp] theorem bumpDraws_readyAt (s : State) (x : Nat) : (s.bumpDraws).readyAt x = s.readyAt x := rfl
@[simp] theorem bumpDraws_session (s : State) (x : Nat) : (s.bumpDraws).session x = s.session x := rfl

@[simp] theorem setPhase_cfg (s : State) (p : Phase) : (s.setPhase p).cfg = s.cfg := rfl
@[simp] theorem setPhase_ready (s : State) (p : Phase) : (s.setPhase p).ready = s.ready := rfl
@[simp] theorem setPhase_cursor (s : State) (p : Phase) : (s.setPhase p).cursor = s.cursor := rfl
@[simp] theorem setPhase_lastAddr (s : State) (p : Phase) : (s.setPhase p).lastAddr = s.lastAddr := rfl
@[simp] theorem setPhase_addrValid (s : State) (p : Phase) : (s.setPhase p).addrValid = s.addrValid := rfl
@[simp] theorem setPhase_sstate (s : State) (p : Phase) : (s.setPhase p).sstate = s.sstate := rfl
@[simp] theorem setPhase_sessions (s : State) (p : Phase) : (s.setPhase p).sessions = s.sessions := rfl
@[simp] theorem setPhase_excl (s : State) (p : Phase) : (s.setPhase p).excl = s.excl := rfl
@[simp] theorem setPhase_seq (s : State) (p : Phase) : (s.setPhase p).seq = { s.seq with phase := p } := rfl
@[simp] theorem setPhase_hreq (s : State) (p : Phase) : (s.setPhase p).hreq = s.hreq := rfl
@[simp] theorem setPhase_buf (s : State) (p : Phase) : (s.setPhase p).buf = s.buf := rfl
@[simp] theorem setPhase_log (s : State) (p : Phase) : (s.setPhase p).log = s.log := rfl
@[simp] theorem setPhase_tr (s : State) (p : Phase) : (s.setPhase p).tr = s.tr := rfl
@[simp] theorem setPhase_agenda (s : State) (p : Phase) : (s.setPhase p).agenda = s.agenda := rfl
@[simp] theorem setPhase_draws (s : State) (p : Phase) : (s.setPhase p).draws = s.draws := rfl
@[simp] theorem setPhase_readyAt (s : State) (p : Phase) (x : Nat) : (s.setPhase p).readyAt x = s.readyAt x := rfl
@[simp] theorem setPhase_session (s : State) (p : Phase) (x : Nat) : (s.setPhase p).session x = s.session x := rfl

@[simp] theorem setCi_cfg (s : State) (c : Nat) : (s.setCi c).cfg = s.cfg := rfl
@[simp] theorem setCi_ready (s : State) (c : Nat) : (s.setCi c).ready = s.ready := rfl
@[simp] theorem setCi_cursor (s : State) (c : Nat) : (s.setCi c).cursor = s.cursor := rfl
@[simp] theorem setCi_lastAddr (s : State) (c : Nat) : (s.setCi c).lastAddr = s.lastAddr := rfl
@[simp] theorem setCi_addrValid (s : State) (c : Nat) : (s.setCi c).addrValid = s.addrValid := rfl
@[simp] theorem setCi_sstate (s : State) (c : Nat) : (s.setCi c).sstate = s.sstate := rfl
@[simp] theorem setCi_sessions (s : State) (c : Nat) : (s.setCi c).sessions = s.sessions := rfl
@[simp] theorem setCi_excl (s : State) (c : Nat) : (s.setCi c).excl = s.excl := rfl
@[simp] theorem setCi_seq (s : State) (c : Nat) : (s.setCi c).seq = { s.seq with ci := c } := rfl
@[simp] theorem setCi_hreq (s : State) (c : Nat) : (s.setCi c).hreq = s.hreq := rfl
@[simp] theorem setCi_buf (s : State) (c : Nat) : (s.setCi c).buf = s.buf := rfl
@[simp] theorem setCi_log (s : State) (c : Nat) : (s.setCi c).log = s.log := rfl
@[simp] theorem setCi_tr (s : State) (c : Nat) : (s.setCi c).tr = s.tr := rfl
@[simp] theorem setCi_agenda (s : State) (c : Nat) : (s.setCi c).agenda = s.agenda := rfl
@[simp] theorem setCi_draws (s : State) (c : Nat) : (s.setCi c).draws = s.draws := rfl
@[simp] theorem setCi_readyAt (s : State) (c : Nat) (x : Nat) : (s.setCi c).readyAt x = s.readyAt x := rfl
@[simp] theorem setCi_session (s : State) (c : Nat) (x : Nat) : (s.setCi c).session x = s.session x := rfl

@[simp] theorem loadFrame_cfg (s : State) (ch : Byte) (cmd : WireCmd) (n : Nat) (frame : List Byte) : (s.loadFrame ch cmd n frame).cfg = s.cfg := rfl
@[simp] theorem loadFrame_ready (s : State) (ch : Byte) (cmd : WireCmd) (n : Nat) (frame : List Byte) : (s.loadFrame ch cmd n frame).ready = s.ready := rfl
@[simp] theorem loadFrame_cursor (s : State) (ch : Byte) (cmd : WireCmd) (n : Nat) (frame : List Byte) : (s.loadFrame ch cmd n frame).cursor = s.cursor := rfl
@[simp] theorem loadFrame_lastAddr (s : State) (ch : Byte) (cmd : WireCmd) (n : Nat) (frame : List Byte) : (s.loadFrame ch cmd n frame).lastAddr = s.lastAddr := rfl
@[simp] theorem loadFrame_addrValid (s : State) (ch : Byte) (cmd : WireCmd) (n : Nat) (frame : List Byte) : (s.loadFrame ch cmd n frame).addrValid = s.addrValid := rfl
@[simp] theorem loadFrame_sstate (s : State) (ch : Byte) (cmd : WireCmd) (n : Nat) (frame : List Byte) : (s.loadFrame ch cmd n frame).sstate = s.sstate := rfl
@[simp] theorem loadFrame_sessions (s : State) (ch : Byte) (cmd : WireCmd) (n : Nat) (frame : List Byte) : (s.loadFrame ch cmd n frame).sessions = s.sessions := rfl
@[simp] theorem loadFrame_excl (s : State) (ch : Byte) (cmd : WireCmd) (n : Nat) (frame : List Byte) : (s.loadFrame ch cmd n frame).excl = s.excl := rfl
@[simp] theorem loadFrame_seq (s : State) (ch : Byte) (cmd : WireCmd) (n : Nat) (frame : List Byte) : (s.loadFrame ch cmd n frame).seq = { s.seq with txbuf := frame, xch := ch, xcmd := cmd, xlen := n, phase := .tx } := rfl
@[simp] theorem loadFrame_hreq (s : State) (ch : Byte) (cmd : WireCmd) (n : Nat) (frame : List Byte) : (s.loadFrame ch cmd n frame).hreq = s.hreq := rfl
@[simp] theorem loadFrame_buf (s : State) (ch : Byte) (cmd : WireCmd) (n : Nat) (frame : List Byte) : (s.loadFrame ch cmd n frame).buf = s.buf := rfl
@[simp] theorem loadFrame_log (s : State) (ch : Byte) (cmd : WireCmd) (n : Nat) (frame : List Byte) : (s.loadFrame ch cmd n frame).log = s.log := rfl
@[simp] theorem loadFrame_tr (s : State) (ch : Byte) (cmd : WireCmd) (n : Nat) (frame : List Byte) : (s.loadFrame ch cmd n frame).tr = s.tr := rfl
@[simp] theorem loadFrame_agenda (s : State) (ch : Byte) (cmd : WireCmd) (n : Nat) (frame : List Byte) : (s.loadFrame ch cmd n frame).agenda = s.agenda := rfl
@[simp] theorem loadFrame_draws (s : State) (ch : Byte) (cmd : WireCmd) (n : Nat) (frame : List Byte) : (s.loadFrame ch cmd n frame).draws = s.draws := rfl
@[simp] theorem loadFrame_readyAt (s : State) (ch : Byte) (cmd : WireCmd) (n : Nat) (frame : List Byte) (x : Nat) : (s.loadFrame ch cmd n frame).readyAt x = s.readyAt x := rfl
@[simp] theorem loadFrame_session (s : State) (ch : Byte) (cmd : WireCmd) (n : Nat) (frame : List Byte) (x : Nat) : (s.loadFrame ch cmd n frame).session x = s.session x := rfl

@[simp] theorem setRxhdr_cfg (s : State) (bytes : List Byte) : (s.setRxhdr bytes).cfg = s.cfg := rfl
@[simp] theorem setRxhdr_ready (s : State) (bytes : List Byte) : (s.setRxhdr bytes).ready = s.ready := rfl
@[simp] theorem setRxhdr_cursor (s : State) (bytes : List Byte) : (s.setRxhdr bytes).cursor = s.cursor := rfl
@[simp] theorem setRxhdr_lastAddr (s : State) (bytes : List Byte) : (s.setRxhdr bytes).lastAddr = s.lastAddr := rfl
@[simp] theorem setRxhdr_addrValid (s : State) (bytes : List Byte) : (s.setRxhdr bytes).addrValid = s.addrValid := rfl
@[simp] theorem setRxhdr_sstate (s : State) (bytes : List Byte) : (s.setRxhdr bytes).sstate = s.sstate := rfl
@[simp] theorem setRxhdr_sessions (s : State) (bytes : List Byte) : (s.setRxhdr bytes).sessions = s.sessions := rfl
@[simp] theorem setRxhdr_excl (s : State) (bytes : List Byte) : (s.setRxhdr bytes).excl = s.excl := rfl
@[simp] theorem setRxhdr_seq (s : State) (bytes : List Byte) : (s.setRxhdr bytes).seq = { s.seq with rxhdr := bytes } := rfl
@[simp] theorem setRxhdr_hreq (s : State) (bytes : List Byte) : (s.setRxhdr bytes).hreq = s.hreq := rfl
@[simp] theorem setRxhdr_buf (s : State) (bytes : List Byte) : (s.setRxhdr bytes).buf = s.buf := rfl
@[simp] theorem setRxhdr_log (s : State) (bytes : List Byte) : (s.setRxhdr bytes).log = s.log := rfl
@[simp] theorem setRxhdr_tr (s : State) (bytes : List Byte) : (s.setRxhdr bytes).tr = s.tr := rfl
@[simp] theorem setRxhdr_agenda (s : State) (bytes : List Byte) : (s.setRxhdr bytes).agenda = s.agenda := rfl
@[simp] theorem setRxhdr_draws (s : State) (bytes : List Byte) : (s.setRxhdr bytes).draws = s.draws := rfl
@[simp] theorem setRxhdr_readyAt (s : State) (bytes : List Byte) (x : Nat) : (s.setRxhdr bytes).readyAt x = s.readyAt x := rfl
@[simp] theorem setRxhdr_session (s : State) (bytes : List Byte) (x : Nat) : (s.setRxhdr bytes).session x = s.session x := rfl

@[simp] theorem setRxpay_cfg (s : State) (bytes : List Byte) : (s.setRxpay bytes).cfg = s.cfg := rfl
@[simp] theorem setRxpay_ready (s : State) (bytes : List Byte) : (s.setRxpay bytes).ready = s.ready := rfl
@[simp] theorem setRxpay_cursor (s : State) (bytes : List Byte) : (s.setRxpay bytes).cursor = s.cursor := rfl
@[simp] theorem setRxpay_lastAddr (s : State) (bytes : List Byte) : (s.setRxpay bytes).lastAddr = s.lastAddr := rfl
@[simp] theorem setRxpay_addrValid (s : State) (bytes : List Byte) : (s.setRxpay bytes).addrValid = s.addrValid := rfl
@[simp] theorem setRxpay_sstate (s : State) (bytes : List Byte) : (s.setRxpay bytes).sstate = s.sstate := rfl
@[simp] theorem setRxpay_sessions (s : State) (bytes : List Byte) : (s.setRxpay bytes).sessions = s.sessions := rfl
@[simp] theorem setRxpay_excl (s : State) (bytes : List Byte) : (s.setRxpay bytes).excl = s.excl := rfl
@[simp] theorem setRxpay_seq (s : State) (bytes : List Byte) : (s.setRxpay bytes).seq = { s.seq with rxpay := bytes } := rfl
@[simp] theorem setRxpay_hreq (s : State) (bytes : List Byte) : (s.setRxpay bytes).hreq = s.hreq := rfl
@[simp] theorem setRxpay_buf (s : State) (bytes : List Byte) : (s.setRxpay bytes).buf = s.buf := rfl
@[simp] theorem setRxpay_log (s : State) (bytes : List Byte) : (s.setRxpay bytes).log = s.log := rfl
@[simp] theorem setRxpay_tr (s : State) (bytes : List Byte) : (s.setRxpay bytes).tr = s.tr := rfl
@[simp] theorem setRxpay_agenda (s : State) (bytes : List Byte) : (s.setRxpay bytes).agenda = s.agenda := rfl
@[simp] theorem setRxpay_draws (s : State) (bytes : List Byte) : (s.setRxpay bytes).draws = s.draws := rfl
@[simp] theorem setRxpay_readyAt (s : State) (bytes : List Byte) (x : Nat) : (s.setRxpay bytes).readyAt x = s.readyAt x := rfl
@[simp] theorem setRxpay_session (s : State) (bytes : List Byte) (x : Nat) : (s.setRxpay bytes).session x = s.session x := rfl

@[simp] theorem endExchange_cfg (s : State) (r : XRes) : (s.endExchange r).cfg = s.cfg := rfl
@[simp] theorem endExchange_ready (s : State) (r : XRes) : (s.endExchange r).ready = s.ready := rfl
@[simp] theorem endExchange_cursor (s : State) (r : XRes) : (s.endExchange r).cursor = s.cursor := rfl
@[simp] theorem endExchange_lastAddr (s : State) (r : XRes) : (s.endExchange r).lastAddr = s.lastAddr := rfl
@[simp] theorem endExchange_addrValid (s : State) (r : XRes) : (s.endExchange r).addrValid = s.addrValid := rfl
@[simp] theorem endExchange_sstate (s : State) (r : XRes) : (s.endExchange r).sstate = s.sstate := rfl
@[simp] theorem endExchange_sessions (s : State) (r : XRes) : (s.endExchange r).sessions = s.sessions := rfl
@[simp] theorem endExchange_excl (s : State) (r : XRes) : (s.endExchange r).excl = s.excl := rfl
@[simp] theorem endExchange_seq (s : State) (r : XRes) : (s.endExchange r).seq = { s.seq with xres := r, phase := .commit } := rfl
@[simp] theorem endExchange_hreq (s : State) (r : XRes) : (s.endExchange r).hreq = s.hreq := rfl
@[simp] theorem endExchange_buf (s : State) (r : XRes) : (s.endExchange r).buf = s.buf := rfl
@[simp] theorem endExchange_log (s : State) (r : XRes) : (s.endExchange r).log = s.log := rfl
@[simp] theorem endExchange_tr (s : State) (r : XRes) : (s.endExchange r).tr = s.tr := rfl
@[simp] theorem endExchange_agenda (s : State) (r : XRes) : (s.endExchange r).agenda = s.agenda := rfl
@[simp] theorem endExchange_draws (s : State) (r : XRes) : (s.endExchange r).draws = s.draws := rfl
@[simp] theorem endExchange_readyAt (s : State) (r : XRes) (x : Nat) : (s.endExchange r).readyAt x = s.readyAt x := rfl
@[simp] theorem endExchange_session (s : State) (r : XRes) (x : Nat) : (s.endExchange r).session x = s.session x := rfl

@[simp] theorem accept_cfg (s : State) (i : Instr) : (s.accept i).cfg = s.cfg := rfl
@[simp] theorem accept_ready (s : State) (i : Instr) : (s.accept i).ready = s.ready := rfl
@[simp] theorem accept_cursor (s : State) (i : Instr) : (s.accept i).cursor = s.cursor := rfl
@[simp] theorem accept_lastAddr (s : State) (i : Instr) : (s.accept i).lastAddr = s.lastAddr := rfl
@[simp] theorem accept_addrValid (s : State) (i : Instr) : (s.accept i).addrValid = s.addrValid := rfl
@[simp] theorem accept_sstate (s : State) (i : Instr) : (s.accept i).sstate = s.sstate := rfl
@[simp] theorem accept_sessions (s : State) (i : Instr) : (s.accept i).sessions = s.sessions := rfl
@[simp] theorem accept_excl (s : State) (i : Instr) : (s.accept i).excl = s.excl := rfl
@[simp] theorem accept_seq (s : State) (i : Instr) : (s.accept i).seq = { s.seq with busy := true, curOp := i } := rfl
@[simp] theorem accept_hreq (s : State) (i : Instr) : (s.accept i).hreq = s.hreq := rfl
@[simp] theorem accept_buf (s : State) (i : Instr) : (s.accept i).buf = s.buf := rfl
@[simp] theorem accept_log (s : State) (i : Instr) : (s.accept i).log = s.log := rfl
@[simp] theorem accept_tr (s : State) (i : Instr) : (s.accept i).tr = s.tr := rfl
@[simp] theorem accept_agenda (s : State) (i : Instr) : (s.accept i).agenda = s.agenda := rfl
@[simp] theorem accept_draws (s : State) (i : Instr) : (s.accept i).draws = s.draws := rfl
@[simp] theorem accept_readyAt (s : State) (i : Instr) (x : Nat) : (s.accept i).readyAt x = s.readyAt x := rfl
@[simp] theorem accept_session (s : State) (i : Instr) (x : Nat) : (s.accept i).session x = s.session x := rfl

@[simp] theorem goIdle_cfg (s : State) : (s.goIdle).cfg = s.cfg := rfl
@[simp] theorem goIdle_ready (s : State) : (s.goIdle).ready = s.ready := rfl
@[simp] theorem goIdle_cursor (s : State) : (s.goIdle).cursor = s.cursor := rfl
@[simp] theorem goIdle_lastAddr (s : State) : (s.goIdle).lastAddr = s.lastAddr := rfl
@[simp] theorem goIdle_addrValid (s : State) : (s.goIdle).addrValid = s.addrValid := rfl
@[simp] theorem goIdle_sstate (s : State) : (s.goIdle).sstate = s.sstate := rfl
@[simp] theorem goIdle_sessions (s : State) : (s.goIdle).sessions = s.sessions := rfl
@[simp] theorem goIdle_excl (s : State) : (s.goIdle).excl = s.excl := rfl
@[simp] theorem goIdle_seq (s : State) : (s.goIdle).seq = { s.seq with busy := false, phase := .idle } := rfl
@[simp] theorem goIdle_hreq (s : State) : (s.goIdle).hreq = s.hreq := rfl
@[simp] theorem goIdle_buf (s : State) : (s.goIdle).buf = s.buf := rfl
@[simp] theorem goIdle_log (s : State) : (s.goIdle).log = s.log := rfl
@[simp] theorem goIdle_tr (s : State) : (s.goIdle).tr = s.tr := rfl
@[simp] theorem goIdle_agenda (s : State) : (s.goIdle).agenda = s.agenda := rfl
@[simp] theorem goIdle_draws (s : State) : (s.goIdle).draws = s.draws := rfl
@[simp] theorem goIdle_readyAt (s : State) (x : Nat) : (s.goIdle).readyAt x = s.readyAt x := rfl
@[simp] theorem goIdle_session (s : State) (x : Nat) : (s.goIdle).session x = s.session x := rfl

@[simp] theorem logExchange_cfg (s : State) (sid : Nat) (op : HostOp) (c : Nat) (cmd : WireCmd) (r : XRes) : (s.logExchange sid op c cmd r).cfg = s.cfg := rfl
@[simp] theorem logExchange_ready (s : State) (sid : Nat) (op : HostOp) (c : Nat) (cmd : WireCmd) (r : XRes) : (s.logExchange sid op c cmd r).ready = s.ready := rfl
@[simp] theorem logExchange_cursor (s : State) (sid : Nat) (op : HostOp) (c : Nat) (cmd : WireCmd) (r : XRes) : (s.logExchange sid op c cmd r).cursor = s.cursor := rfl
@[simp] theorem logExchange_lastAddr (s : State) (sid : Nat) (op : HostOp) (c : Nat) (cmd : WireCmd) (r : XRes) : (s.logExchange sid op c cmd r).lastAddr = s.lastAddr := rfl
@[simp] theorem logExchange_addrValid (s : State) (sid : Nat) (op : HostOp) (c : Nat) (cmd : WireCmd) (r : XRes) : (s.logExchange sid op c cmd r).addrValid = s.addrValid := rfl
@[simp] theorem logExchange_sstate (s : State) (sid : Nat) (op : HostOp) (c : Nat) (cmd : WireCmd) (r : XRes) : (s.logExchange sid op c cmd r).sstate = s.sstate := rfl
@[simp] theorem logExchange_sessions (s : State) (sid : Nat) (op : HostOp) (c : Nat) (cmd : WireCmd) (r : XRes) : (s.logExchange sid op c cmd r).sessions = s.sessions := rfl
@[simp] theorem logExchange_excl (s : State) (sid : Nat) (op : HostOp) (c : Nat) (cmd : WireCmd) (r : XRes) : (s.logExchange sid op c cmd r).excl = s.excl := rfl
@[simp] theorem logExchange_seq (s : State) (sid : Nat) (op : HostOp) (c : Nat) (cmd : WireCmd) (r : XRes) : (s.logExchange sid op c cmd r).seq = s.seq := rfl
@[simp] theorem logExchange_hreq (s : State) (sid : Nat) (op : HostOp) (c : Nat) (cmd : WireCmd) (r : XRes) : (s.logExchange sid op c cmd r).hreq = s.hreq := rfl
@[simp] theorem logExchange_buf (s : State) (sid : Nat) (op : HostOp) (c : Nat) (cmd : WireCmd) (r : XRes) : (s.logExchange sid op c cmd r).buf = s.buf := rfl
@[simp] theorem logExchange_log (s : State) (sid : Nat) (op : HostOp) (c : Nat) (cmd : WireCmd) (r : XRes) : (s.logExchange sid op c cmd r).log = s.log ++ [{ sid := sid, op := op, ch := c, cmd := cmd, outcome := logOutcome r }] := rfl
@[simp] theorem logExchange_tr (s : State) (sid : Nat) (op : HostOp) (c : Nat) (cmd : WireCmd) (r : XRes) : (s.logExchange sid op c cmd r).tr = s.tr := rfl
@[simp] theorem logExchange_agenda (s : State) (sid : Nat) (op : HostOp) (c : Nat) (cmd : WireCmd) (r : XRes) : (s.logExchange sid op c cmd r).agenda = s.agenda := rfl
@[simp] theorem logExchange_draws (s : State) (sid : Nat) (op : HostOp) (c : Nat) (cmd : WireCmd) (r : XRes) : (s.logExchange sid op c cmd r).draws = s.draws := rfl
@[simp] theorem logExchange_readyAt (s : State) (sid : Nat) (op : HostOp) (c : Nat) (cmd : WireCmd) (r : XRes) (x : Nat) : (s.logExchange sid op c cmd r).readyAt x = s.readyAt x := rfl
@[simp] theorem logExchange_session (s : State) (sid : Nat) (op : HostOp) (c : Nat) (cmd : WireCmd) (r : XRes) (x : Nat) : (s.logExchange sid op c cmd r).session x = s.session x := rfl

/-- Reading a ready flag after one has been written. -/
theorem setReady_readyAt (s : State) (c x : Nat) (b : Bool) :
    (s.setReady c b).readyAt x = if c = x ∧ c < s.ready.length then b else s.readyAt x := by
  simp only [State.readyAt, setReady_ready, List.getD_eq_getElem?_getD, List.getElem?_set]
  by_cases h : c = x
  · subst h
    by_cases h2 : c < s.ready.length <;> simp [h2]
  · simp [h]

/-- Clearing a ready flag never makes a channel ready. -/
theorem setReady_false_readyAt (s : State) (c x : Nat) :
    (s.setReady c false).readyAt x = (s.readyAt x && !decide (c = x)) := by
  rw [setReady_readyAt]
  by_cases h : c = x
  · subst h
    by_cases h2 : c < s.ready.length
    · simp [h2]
    · simp [h2, State.readyAt, List.getD_eq_getElem?_getD]
  · simp [h]

@[simp] theorem setReady_ready_length (s : State) (c : Nat) (b : Bool) :
    (s.setReady c b).ready.length = s.ready.length := by simp

@[simp] theorem updSession_sessions_length (s : State) (sid : Nat) (f : Session → Session) :
    (s.updSession sid f).sessions.length = s.sessions.length := by simp

/-- Reading the session that has been changed. -/
theorem updSession_session_self (s : State) (sid : Nat) (f : Session → Session) (h : sid < s.sessions.length) :
    (s.updSession sid f).session sid = f (s.session sid) := by
  simp [State.session, List.getD_eq_getElem?_getD, h]

/-- Reading another session. -/
theorem updSession_session_ne (s : State) (sid x : Nat) (f : Session → Session) (h : sid ≠ x) :
    (s.updSession sid f).session x = s.session x := by
  simp [State.session, List.getD_eq_getElem?_getD, h]

end Sys2Proof.Machine
end

