-- ==== Sys2Proof/Laws/Memory.lean ====
section
/-! SUPPORT. The laws of the buffer space: reading after writing, and that every write keeps the canonical form. -/

namespace Sys2Proof.Machine

/-- Reading a byte after storing one. -/
theorem Memory.read_write (m : Memory) (lo x y : Nat) (v : Byte) (h : Memory.risingFrom lo m = true) :
    Memory.read (Memory.write m x v) y = if x = y then v else Memory.read m y := by
  induction m generalizing lo with
  | nil =>
    unfold Memory.write
    split <;> simp_all [Memory.read]
  | cons cell m ih =>
    obtain ⟨a, b⟩ := cell
    simp only [Memory.risingFrom, Bool.and_eq_true, decide_eq_true_eq] at h
    have below : ∀ (m' : Memory) (l z : Nat), Memory.risingFrom l m' = true → z < l →
        Memory.read m' z = Memory.unlisted := by
      intro m'
      induction m' with
      | nil => intros; rfl
      | cons c m' ih' =>
        intro l z hr hz
        obtain ⟨a', b'⟩ := c
        simp only [Memory.risingFrom, Bool.and_eq_true, decide_eq_true_eq] at hr
        have : a' ≠ z := by omega
        simp only [Memory.read, this, if_false]
        exact ih' _ _ hr.2 (by omega)
    simp only [Memory.write]
    split
    · simp only [Memory.read, ih _ h.2]
      split <;> split <;> simp_all
    · split
      · rename_i _ hax
        subst hax
        have := below m (a + 1) a h.2 (by omega)
        split <;> simp only [Memory.read] <;> split <;> simp_all
      · have hb := below m (a + 1) x h.2 (by omega)
        by_cases hxy : x = y
        · subst hxy
          split <;> simp_all [Memory.read]
        · split <;> simp [Memory.read, hxy]

/-- A write keeps the addresses rising. -/
theorem Memory.risingFrom_write (m : Memory) (lo x : Nat) (v : Byte) (h : Memory.risingFrom lo m = true)
    (hx : lo ≤ x) : Memory.risingFrom lo (Memory.write m x v) = true := by
  have weaken : ∀ (m' : Memory) (l l' : Nat), Memory.risingFrom l m' = true → l' ≤ l →
      Memory.risingFrom l' m' = true := by
    intro m' l l' hr hl
    cases m' with
    | nil => rfl
    | cons c m' =>
      obtain ⟨a, b⟩ := c
      simp only [Memory.risingFrom, Bool.and_eq_true, decide_eq_true_eq] at hr ⊢
      exact ⟨by omega, hr.2⟩
  induction m generalizing lo with
  | nil => unfold Memory.write; split <;> simp_all [Memory.risingFrom]
  | cons cell m ih =>
    obtain ⟨a, b⟩ := cell
    have h' := h
    simp only [Memory.risingFrom, Bool.and_eq_true, decide_eq_true_eq] at h
    simp only [Memory.write]
    split
    · simp only [Memory.risingFrom, Bool.and_eq_true, decide_eq_true_eq]
      exact ⟨h.1, ih _ h.2 (by omega)⟩
    · split
      · split
        · exact weaken _ _ _ h.2 (by omega)
        · simp only [Memory.risingFrom, Bool.and_eq_true, decide_eq_true_eq]
          rename_i hax _
          exact ⟨hx, hax ▸ h.2⟩
      · split
        · exact h'
        · simp only [Memory.risingFrom, Bool.and_eq_true, decide_eq_true_eq]
          exact ⟨hx, by omega, h.2⟩

/-- A write lists no cell that a cell before it or the stored one does not account for. -/
theorem Memory.mem_write (m : Memory) (x : Nat) (v : Byte) (cell : Host.Cell) (h : cell ∈ Memory.write m x v) :
    cell ∈ m ∨ (cell = (x, v) ∧ v ≠ Memory.unlisted) := by
  induction m with
  | nil => unfold Memory.write at h; split at h <;> simp_all
  | cons c m ih =>
    obtain ⟨a, b⟩ := c
    simp only [Memory.write] at h
    split at h
    · rcases List.mem_cons.1 h with h | h
      · exact .inl (by simp [h])
      · rcases ih h with h | h
        · exact .inl (by simp [h])
        · exact .inr h
    · split at h
      · split at h
        · exact .inl (by simp [h])
        · rcases List.mem_cons.1 h with h | h
          · exact .inr ⟨h, by assumption⟩
          · exact .inl (by simp [h])
      · split at h
        · exact .inl h
        · rcases List.mem_cons.1 h with h | h
          · exact .inr ⟨h, by assumption⟩
          · exact .inl h

/-- A write keeps the canonical form. -/
theorem Memory.wf_write (m : Memory) (x : Nat) (v : Byte) (h : Memory.wf m = true) :
    Memory.wf (Memory.write m x v) = true := by
  simp only [Memory.wf, Bool.and_eq_true, List.all_eq_true, bne_iff_ne] at h ⊢
  refine ⟨Memory.risingFrom_write m 0 x v h.1 (Nat.zero_le _), fun cell hc => ?_⟩
  rcases Memory.mem_write m x v cell hc with hm | ⟨rfl, hv⟩
  · exact h.2 cell hm
  · exact hv

/-- A run of writes keeps the canonical form. -/
theorem Memory.wf_writeList (v : List Byte) (m : Memory) (x : Nat) (h : Memory.wf m = true) :
    Memory.wf (Memory.writeList m x v) = true := by
  induction v generalizing m x with
  | nil => exact h
  | cons b bs ih => exact ih _ _ (Memory.wf_write m x b h)

/-- Every cell a run of writes lists was there before or lies in the run. -/
theorem Memory.mem_writeList (v : List Byte) (m : Memory) (x : Nat) (cell : Host.Cell)
    (h : cell ∈ Memory.writeList m x v) : cell ∈ m ∨ (x ≤ cell.1 ∧ cell.1 < x + v.length) := by
  induction v generalizing m x with
  | nil => exact .inl h
  | cons b bs ih =>
    rcases ih _ _ h with h | h
    · rcases Memory.mem_write m x b cell h with h | ⟨rfl, _⟩
      · exact .inl h
      · exact .inr (by simp)
    · exact .inr (by simp only [List.length_cons]; omega)

/-- The byte at an address after a run of writes to a memory in canonical form. -/
theorem Memory.read_writeList (v : List Byte) (m : Memory) (x y : Nat) (h : Memory.wf m = true) :
    Memory.read (Memory.writeList m x v) y =
      if x ≤ y ∧ y < x + v.length then v.getD (y - x) 0 else Memory.read m y := by
  induction v generalizing m x with
  | nil =>
    simp [Memory.writeList]
  | cons b bs ih =>
    have hw := h
    simp only [Memory.wf, Bool.and_eq_true] at hw
    rw [Memory.writeList, ih _ _ (Memory.wf_write m x b h), Memory.read_write m 0 x y b hw.1]
    simp only [List.length_cons]
    by_cases h1 : x + 1 ≤ y ∧ y < x + 1 + bs.length
    · have h2 : x ≤ y ∧ y < x + (bs.length + 1) := by omega
      obtain ⟨k, rfl⟩ : ∃ k, y = x + 1 + k := ⟨y - (x + 1), by omega⟩
      have e1 : x + 1 + k - (x + 1) = k := by omega
      have e2 : x + 1 + k - x = k + 1 := by omega
      simp only [h1, and_self, if_true, h2, e1, e2, List.getD_cons_succ]
    · by_cases h3 : x = y
      · subst h3
        simp
      · have h2 : ¬(x ≤ y ∧ y < x + (bs.length + 1)) := by omega
        simp only [h1, h2, h3, if_false]

/-- The state after `MemWrite` keeps the canonical form. -/
theorem memWrite_wf (s : State) (x : Nat) (v : List Byte) (h : Memory.wf s.buf = true) :
    Memory.wf (memWrite s x v).buf = true := Memory.wf_writeList v s.buf x h

end Sys2Proof.Machine
end

