-- ==== Sys2Proof/Laws/Ops.lean ====
section
/-! SUPPORT. What each shared operation can do, said once: what traffic leaves alone (`Traffic`), what crosses the link
(`Sent`), and what an exchange answers. -/

namespace Sys2Proof.Machine

/-- A payload of one byte is that byte (R194). -/
@[simp] theorem soleByte_one (d c : Nat) (b : Byte) : soleByte d c [b] = b := rfl

/-- A payload of eight bytes is the address they spell in index order (R228, R53). -/
@[simp] theorem fetchedAddr_addrBytes (d c : Nat) (a : DevAddr) : fetchedAddr d c (addrBytes a) = a := rfl

/-- A byte the payload has is that byte of the address (R23, R53). -/
theorem fetchedByte_of_lt (d c : Nat) (pay : List Byte) (i : Nat) (h : i < pay.length) :
    fetchedByte d c pay i = pay[i] := by
  simp [fetchedByte, List.getD_eq_getElem?_getD, h]

/-- Whatever the payload's length, the address begins with its first eight bytes, in index order (R23, R53). -/
theorem fetchedAddr_prefix (d c : Nat) (pay : List Byte) : pay.take 8 <+: addrBytes (fetchedAddr d c pay) := by
  rcases pay with _ | ⟨_, _ | ⟨_, _ | ⟨_, _ | ⟨_, _ | ⟨_, _ | ⟨_, _ | ⟨_, _ | ⟨_, _⟩⟩⟩⟩⟩⟩⟩⟩ <;>
    simp [addrBytes, fetchedAddr, fetchedByte]

/-- `t` is `s` after traffic: only the streams, the exchange's registers and ready flags cleared may differ. -/
structure Traffic (s t : State) : Prop where
  cfg : t.cfg = s.cfg
  cursor : t.cursor = s.cursor
  lastAddr : t.lastAddr = s.lastAddr
  addrValid : t.addrValid = s.addrValid
  sstate : t.sstate = s.sstate
  sessions : t.sessions = s.sessions
  excl : t.excl = s.excl
  hreq : t.hreq = s.hreq
  buf : t.buf = s.buf
  log : t.log = s.log
  agenda : t.agenda = s.agenda
  draws : t.draws = s.draws
  readyLen : t.ready.length = s.ready.length
  readyDown : ∀ x, t.readyAt x = true → s.readyAt x = true
  busy : t.seq.busy = s.seq.busy

theorem Traffic.refl (s : State) : Traffic s s :=
  ⟨rfl, rfl, rfl, rfl, rfl, rfl, rfl, rfl, rfl, rfl, rfl, rfl, rfl, fun _ h => h, rfl⟩

theorem Traffic.trans {s t u : State} (h : Traffic s t) (k : Traffic t u) : Traffic s u :=
  ⟨k.cfg.trans h.cfg, k.cursor.trans h.cursor, k.lastAddr.trans h.lastAddr, k.addrValid.trans h.addrValid,
   k.sstate.trans h.sstate, k.sessions.trans h.sessions, k.excl.trans h.excl, k.hreq.trans h.hreq,
   k.buf.trans h.buf, k.log.trans h.log, k.agenda.trans h.agenda, k.draws.trans h.draws,
   k.readyLen.trans h.readyLen, fun x hx => h.readyDown x (k.readyDown x hx), k.busy.trans h.busy⟩

/-- A session reads the same after traffic. -/
theorem Traffic.session {s t : State} (h : Traffic s t) (x : Nat) : t.session x = s.session x := by
  simp [State.session, h.sessions]

/-- Replacing the transport's side is traffic. -/
theorem Traffic.setTr (s : State) (t : Transport) : Traffic s (s.setTr t) :=
  ⟨rfl, rfl, rfl, rfl, rfl, rfl, rfl, rfl, rfl, rfl, rfl, rfl, rfl, fun _ h => h, rfl⟩

/-- Changing the sequencer's registers other than `busy` is traffic. -/
theorem Traffic.setSeq (s : State) (q : Sequencer) (h : q.busy = s.seq.busy) : Traffic s (s.setSeq q) :=
  ⟨rfl, rfl, rfl, rfl, rfl, rfl, rfl, rfl, rfl, rfl, rfl, rfl, rfl, fun _ h => h, h⟩

/-- Clearing a ready flag is traffic. -/
theorem Traffic.clearReady (s : State) (c : Nat) : Traffic s (s.setReady c false) :=
  ⟨rfl, rfl, rfl, rfl, rfl, rfl, rfl, rfl, rfl, rfl, rfl, rfl, by simp, fun x h => by
    rw [setReady_false_readyAt] at h; exact (Bool.and_eq_true _ _ ▸ h).1, rfl⟩

/-- Between `s` and `t` exactly `frames` were handed to the transmit stream, and the receive stream lost from its front
exactly what was read, growing only at its end. -/
def Sent (s t : State) (frames : List (List Byte)) : Prop :=
  ∃ es arrived, t.tr.link = s.tr.link ++ es ∧ writtenFrames es = frames ∧
    s.tr.rx ++ arrived = readBytes es ++ t.tr.rx

theorem writtenFrames_append (a b : List LinkEvent) :
    writtenFrames (a ++ b) = writtenFrames a ++ writtenFrames b := by
  induction a with
  | nil => rfl
  | cons e a ih => cases e <;> simp [writtenFrames, ih]

theorem readBytes_append (a b : List LinkEvent) : readBytes (a ++ b) = readBytes a ++ readBytes b := by
  induction a with
  | nil => rfl
  | cons e a ih => cases e <;> simp [readBytes, ih]

/-- Nothing crosses the link when the transport is untouched. -/
theorem Sent.none {s t : State} (h : t.tr = s.tr) : Sent s t [] := ⟨[], [], by simp [h], rfl, by simp [h, readBytes]⟩

theorem Sent.trans {s t u : State} {f g : List (List Byte)} (h : Sent s t f) (k : Sent t u g) :
    Sent s u (f ++ g) := by
  obtain ⟨e1, a1, l1, w1, r1⟩ := h
  obtain ⟨e2, a2, l2, w2, r2⟩ := k
  refine ⟨e1 ++ e2, a1 ++ a2, by rw [l2, l1, List.append_assoc], by rw [writtenFrames_append, w1, w2], ?_⟩
  rw [readBytes_append, ← List.append_assoc, r1, List.append_assoc, r2, List.append_assoc]

/-- What was sent, read off the two states. -/
theorem Sent.frames {s t : State} {f : List (List Byte)} (h : Sent s t f) : framesSent s t = f := by
  obtain ⟨es, _, l, w, _⟩ := h
  simp [framesSent, newEvents, l, w]

/-- What was read, read off the two states. -/
theorem Sent.received {s t : State} {f : List (List Byte)} (h : Sent s t f) :
    ∃ arrived, s.tr.rx ++ arrived = readBytes (newEvents s t) ++ t.tr.rx := by
  obtain ⟨es, a, l, _, r⟩ := h
  exact ⟨a, by simpa [newEvents, l] using r⟩

theorem takeWrite_rx (t : Transport) : t.takeWrite.2.rx = t.rx ∧ t.takeWrite.2.link = t.link := by
  unfold Transport.takeWrite; split <;> simp

theorem takeFlush_rx (t : Transport) : t.takeFlush.2.rx = t.rx ∧ t.takeFlush.2.link = t.link := by
  unfold Transport.takeFlush; split <;> simp

theorem takeArrival_rx (t : Transport) : t.takeArrival.2.rx = t.rx ∧ t.takeArrival.2.link = t.link := by
  unfold Transport.takeArrival; split <;> simp

theorem takeConnect_rx (t : Transport) : t.takeConnect.2.rx = t.rx ∧ t.takeConnect.2.link = t.link := by
  unfold Transport.takeConnect; split <;> simp

/-- `TransportWrite` (R56). -/
theorem transportWrite_spec (frame : List Byte) (s : State) :
    Traffic s (transportWrite frame s).2 ∧ Sent s (transportWrite frame s).2 [frame] := by
  refine ⟨Traffic.setTr _ _, [.write frame s.tr.takeWrite.1], [], ?_, rfl, ?_⟩ <;>
    simp [transportWrite, Transport.record, takeWrite_rx, readBytes]

/-- `TransportFlush` (R57). -/
theorem transportFlush_spec (s : State) :
    Traffic s (transportFlush s).2 ∧ Sent s (transportFlush s).2 [] := by
  refine ⟨Traffic.setTr _ _, [.flush s.tr.takeFlush.1], [], ?_, rfl, ?_⟩ <;>
    simp [transportFlush, Transport.record, takeFlush_rx, readBytes]

/-- `TransportRead(n)` (R58): at most `n` bytes, from the front of the receive stream. -/
theorem transportRead_spec (n : Nat) (s : State) :
    Traffic s (transportRead n s).2 ∧ Sent s (transportRead n s).2 [] ∧ (transportRead n s).1.length ≤ n := by
  refine ⟨Traffic.setTr _ _, ⟨[.read n ((s.tr.rx ++ s.tr.takeArrival.1).take n)], s.tr.takeArrival.1, ?_, rfl, ?_⟩,
    ?_⟩
  · simp [transportRead, Transport.record, takeArrival_rx]
  · simp [transportRead, Transport.record, takeArrival_rx, readBytes]
  · simp only [transportRead, List.length_take]; omega

/-- A step of the sequencer's registers alone. -/
theorem setSeq_spec (s : State) (q : Sequencer) (h : q.busy = s.seq.busy) :
    Traffic s (s.setSeq q) ∧ Sent s (s.setSeq q) [] := ⟨Traffic.setSeq s q h, Sent.none rfl⟩

/-- The settling wait sends and reads nothing (R330). -/
theorem waitSettle_spec (cmd : WireCmd) (s : State) : Traffic s (waitSettle cmd s) ∧ Sent s (waitSettle cmd s) [] := by
  refine ⟨(Traffic.setSeq s { s.seq with phase := .settle } rfl).trans (Traffic.setTr (s.setPhase .settle) _),
    [.wait (settleMs s.cfg cmd)], [], ?_, rfl, ?_⟩ <;>
    simp [waitSettle, Transport.record, readBytes]

/-- `SendRequest` hands over its frame, whole and once (R119). -/
theorem sendRequest_spec (ch : Byte) (cmd : WireCmd) (pay : List Byte) (n : Nat) (s : State) :
    Traffic s (sendRequest ch cmd pay n s).2 ∧
      Sent s (sendRequest ch cmd pay n s).2 [wireFrame s.cfg ch cmd pay] := by
  have h1 := setSeq_spec s { s.seq with
    txbuf := wireFrame s.cfg ch cmd pay, xch := ch, xcmd := cmd, xlen := n, phase := .tx } rfl
  have h2 := transportWrite_spec (wireFrame s.cfg ch cmd pay) (s.loadFrame ch cmd n (wireFrame s.cfg ch cmd pay))
  have h12 := And.intro (h1.1.trans h2.1) (h1.2.trans h2.2)
  simp only [sendRequest]
  split
  · have h3 := setSeq_spec (transportWrite (wireFrame s.cfg ch cmd pay)
      (s.loadFrame ch cmd n (wireFrame s.cfg ch cmd pay))).2 { (transportWrite (wireFrame s.cfg ch cmd pay)
      (s.loadFrame ch cmd n (wireFrame s.cfg ch cmd pay))).2.seq with phase := .flush } rfl
    have h4 := transportFlush_spec ((transportWrite (wireFrame s.cfg ch cmd pay)
      (s.loadFrame ch cmd n (wireFrame s.cfg ch cmd pay))).2.setPhase .flush)
    exact ⟨(h12.1.trans h3.1).trans h4.1, (h12.2.trans h3.2).trans h4.2⟩
  · exact h12

/-- The payload part of `ReadResponse`. -/
theorem readPayload_spec (ch status len : Byte) (s : State) :
    Traffic s (readPayload ch status len s).2 ∧ Sent s (readPayload ch status len s).2 [] := by
  unfold readPayload
  split
  · exact setSeq_spec s _ rfl
  · have h1 := setSeq_spec s { s.seq with phase := .rxp } rfl
    have h2 := transportRead_spec len.toNat (s.setPhase .rxp)
    have h3 := setSeq_spec (transportRead len.toNat (s.setPhase .rxp)).2
      { (transportRead len.toNat (s.setPhase .rxp)).2.seq with
        rxpay := (transportRead len.toNat (s.setPhase .rxp)).1 } rfl
    exact ⟨(h1.1.trans h2.1).trans h3.1, (h1.2.trans h2.2.1).trans h3.2⟩

/-- `ReadResponse` sends nothing (R114). -/
theorem readResponse_spec (s : State) :
    Traffic s (readResponse s).2 ∧ Sent s (readResponse s).2 [] := by
  have h1 := setSeq_spec s { s.seq with phase := .rxh } rfl
  have h2 := transportRead_spec 3 (s.setPhase .rxh)
  have h3 := setSeq_spec (transportRead 3 (s.setPhase .rxh)).2
    { (transportRead 3 (s.setPhase .rxh)).2.seq with rxhdr := (transportRead 3 (s.setPhase .rxh)).1 } rfl
  have h := And.intro ((h1.1.trans h2.1).trans h3.1) ((h1.2.trans h2.2.1).trans h3.2)
  unfold readResponse
  dsimp only
  split
  · rename_i ch status len _
    have h4 := readPayload_spec ch status len
      ((transportRead 3 (s.setPhase .rxh)).2.setRxhdr (transportRead 3 (s.setPhase .rxh)).1)
    exact ⟨h.1.trans h4.1, h.2.trans h4.2⟩
  · exact h

/-- `Exchange` sends its one frame and leaves every register of the core alone (R120). -/
theorem exchange_spec (ch : Byte) (cmd : WireCmd) (pay : List Byte) (n : Nat) (s : State) :
    Traffic s (exchange ch cmd pay n s).2 ∧ Sent s (exchange ch cmd pay n s).2 [wireFrame s.cfg ch cmd pay] := by
  have h1 := sendRequest_spec ch cmd pay n s
  have h2 := waitSettle_spec cmd (sendRequest ch cmd pay n s).2
  have h3 := readResponse_spec (waitSettle cmd (sendRequest ch cmd pay n s).2)
  have h := And.intro ((h1.1.trans h2.1).trans h3.1) ((h1.2.trans h2.2).trans h3.2)
  have e : ∀ (q : State) (r : XRes), Traffic q (q.endExchange r) ∧ Sent q (q.endExchange r) [] :=
    fun q r => setSeq_spec q _ rfl
  have p : ∀ (q : State) (x : Phase), Traffic q (q.setPhase x) ∧ Sent q (q.setPhase x) [] :=
    fun q x => setSeq_spec q _ rfl
  unfold exchange
  dsimp only
  split
  · split
    · exact ⟨h.1.trans (e _ _).1, h.2.trans (e _ _).2⟩
    · exact ⟨(h.1.trans (p _ _).1).trans (e _ _).1, (h.2.trans (p _ _).2).trans (e _ _).2⟩
  · exact ⟨h1.1.trans (e _ _).1, h1.2.trans (e _ _).2⟩

/-- An exchange leaves the whole ready table alone (R120). -/
theorem sendRequest_ready (ch : Byte) (cmd : WireCmd) (pay : List Byte) (n : Nat) (s : State) :
    (sendRequest ch cmd pay n s).2.ready = s.ready := by
  simp only [sendRequest]
  split <;> rfl

theorem readResponse_ready (s : State) : (readResponse s).2.ready = s.ready := by
  unfold readResponse
  dsimp only
  split
  · simp only [readPayload, transportRead]
    split <;> simp
  · simp [transportRead]

/-- `Exchange` writes no ready flag (R120). -/
theorem exchange_ready (ch : Byte) (cmd : WireCmd) (pay : List Byte) (n : Nat) (s : State) :
    (exchange ch cmd pay n s).2.ready = s.ready := by
  unfold exchange
  dsimp only
  split
  · split <;> simp [readResponse_ready, waitSettle, sendRequest_ready]
  · simp [sendRequest_ready]

/-- What `Validate` answers `Ok` is the payload, of the expected length (R115). -/
theorem validate_ok {c : Config} {reqch ch status : Byte} {n : Nat} {pay p : List Byte}
    (h : validate c reqch n ch status pay = .ok p) :
    p = pay ∧ pay.length = n ∧ ch = reqch ∧ statusClass c status = .success := by
  unfold validate at h
  split at h
  · cases h
  · rename_i hch
    split at h
    · cases h
    · cases h
    · rename_i hs
      split at h
      · cases h
      · rename_i hl
        cases h
        exact ⟨rfl, by simpa using hl, by simpa using hch, hs⟩

/-- `Validate` answers a payload or an error, never `Skipped` and never `ConnectFail` (R115). -/
theorem validate_cases (c : Config) (reqch : Byte) (n : Nat) (ch status : Byte) (pay : List Byte) :
    (∃ p, validate c reqch n ch status pay = .ok p) ∨
      ∃ cause info, validate c reqch n ch status pay = .err cause info ∧ cause ≠ .connectFail := by
  unfold validate
  split
  · exact .inr ⟨_, _, rfl, by decide⟩
  · split
    · exact .inr ⟨_, _, rfl, by decide⟩
    · exact .inr ⟨_, _, rfl, by decide⟩
    · split
      · exact .inr ⟨_, _, rfl, by decide⟩
      · exact .inl ⟨_, rfl⟩

/-- An exchange answers a payload of the expected length or one of the seven causes (R120). -/
theorem exchange_cases (ch : Byte) (cmd : WireCmd) (pay : List Byte) (n : Nat) (s : State) :
    (∃ p, (exchange ch cmd pay n s).1 = .ok p ∧ p.length = n) ∨
      ∃ cause info, (exchange ch cmd pay n s).1 = .err cause info ∧ cause ≠ .connectFail := by
  unfold exchange
  dsimp only
  split
  · split
    · rename_i cause info hr
      refine .inr ⟨_, _, rfl, ?_⟩
      unfold readResponse at hr
      dsimp only at hr
      split at hr
      · unfold readPayload at hr
        split at hr
        · cases hr
        · dsimp only at hr
          split at hr
          · cases hr; decide
          · cases hr
      · cases hr; decide
    · rename_i ch' status pay' _
      dsimp only
      rcases validate_cases s.cfg ch n ch' status pay' with ⟨p, hp⟩ | h
      · exact .inl ⟨p, hp, by obtain ⟨rfl, hl, -⟩ := validate_ok hp; exact hl⟩
      · exact .inr h
  · exact .inr ⟨_, _, rfl, by decide⟩

/-- The downgrade clears at most the one flag (R121). -/
theorem downgradeOn_spec (c : Nat) (r : XRes) (s : State) :
    Traffic s (downgradeOn c r s) ∧ Sent s (downgradeOn c r s) [] ∧
      ((downgradeOn c r s).ready = s.ready ∨ (downgradeOn c r s).ready = s.ready.set c false) := by
  unfold downgradeOn
  split
  · split
    · exact ⟨Traffic.clearReady s c, Sent.none rfl, .inr rfl⟩
    · exact ⟨Traffic.refl s, Sent.none rfl, .inl rfl⟩
  · exact ⟨Traffic.refl s, Sent.none rfl, .inl rfl⟩
  · exact ⟨Traffic.refl s, Sent.none rfl, .inl rfl⟩

/-- `ExchangeCh` is traffic of one frame (R121). -/
theorem exchangeCh_spec (c : Nat) (cmd : WireCmd) (pay : List Byte) (n : Nat) (s : State) :
    Traffic s (exchangeCh c cmd pay n s).2 ∧
      Sent s (exchangeCh c cmd pay n s).2 [wireFrame s.cfg (byteOf c) cmd pay] := by
  have h := exchange_spec (byteOf c) cmd pay n s
  have k := downgradeOn_spec c (exchange (byteOf c) cmd pay n s).1 (exchange (byteOf c) cmd pay n s).2
  exact ⟨h.1.trans k.1, h.2.trans k.2.1⟩

/-- What `ExchangeCh` does to the ready table (R121). -/
theorem exchangeCh_ready (c : Nat) (cmd : WireCmd) (pay : List Byte) (n : Nat) (s : State) :
    (exchangeCh c cmd pay n s).2.ready = s.ready ∨ (exchangeCh c cmd pay n s).2.ready = s.ready.set c false := by
  have k := downgradeOn_spec c (exchange (byteOf c) cmd pay n s).1 (exchange (byteOf c) cmd pay n s).2
  rw [exchange_ready] at k
  exact k.2.2

/-- Its result is the exchange's (R121). -/
theorem exchangeCh_cases (c : Nat) (cmd : WireCmd) (pay : List Byte) (n : Nat) (s : State) :
    (∃ p, (exchangeCh c cmd pay n s).1 = .ok p ∧ p.length = n) ∨
      ∃ cause info, (exchangeCh c cmd pay n s).1 = .err cause info ∧ cause ≠ .connectFail :=
  exchange_cases (byteOf c) cmd pay n s

/-- A successful exchange downgrades nothing (R121). -/
theorem exchangeCh_ok_ready {c : Nat} {cmd : WireCmd} {pay p : List Byte} {n : Nat} {s : State}
    (h : (exchangeCh c cmd pay n s).1 = .ok p) : (exchangeCh c cmd pay n s).2.ready = s.ready := by
  have h' : (exchange (byteOf c) cmd pay n s).1 = .ok p := h
  simp only [exchangeCh, h', downgradeOn, exchange_ready]

/-- `Route1` is traffic of one frame, or of none (R162). -/
theorem route1_spec (cmd : WireCmd) (pay : List Byte) (n : Nat) (s : State) :
    Traffic s (route1 cmd pay n s).2 ∧
      Sent s (route1 cmd pay n s).2
        (if s.readyAt s.cursor then [wireFrame s.cfg (byteOf s.cursor) cmd pay] else []) := by
  unfold route1
  split
  · exact exchangeCh_spec _ _ _ _ _
  · exact ⟨Traffic.refl s, Sent.none rfl⟩

/-! What a write, a flush and a read answer when the environment has settled it. -/

theorem takeWrite_of_head {t : Transport} {ok : Bool} (h : t.writeAns.head? = some ok) : t.takeWrite.1 = ok := by
  unfold Transport.takeWrite
  split <;> simp_all

theorem takeFlush_of_head {t : Transport} {ok : Bool} (h : t.flushAns.head? = some ok) : t.takeFlush.1 = ok := by
  unfold Transport.takeFlush
  split <;> simp_all

theorem takeArrival_of_ne {t : Transport} (h : t.arrivals ≠ []) : t.takeArrival.1 = t.arrivals.headD [] := by
  unfold Transport.takeArrival
  split <;> simp_all

end Sys2Proof.Machine
end

