-- ==== Sys2Proof/Laws/Exchange.lean ====
section
/-! SUPPORT. What an exchange answers when the environment has settled what the device does: it answers in full, it
stays silent, or the write fails; and what ending a host operation does to its session. -/

namespace Sys2Proof.Machine

/-- A read gets the bytes that stand first in the stream, and leaves what stands behind them (R58). -/
theorem transportRead_of_prefix {s : State} {bytes tail : List Byte} {n : Nat} (hn : bytes.length = n)
    (h : bytes ++ tail <+: s.tr.rx ++ s.tr.takeArrival.1) :
    (transportRead n s).1 = bytes ∧ tail <+: (transportRead n s).2.tr.rx := by
  obtain ⟨more, hm⟩ := h
  subst hn
  simp [transportRead, Transport.record, takeArrival_rx, ← hm]

/-- A read that arrives at bytes already in the stream gets them, whatever else arrives (R58). -/
theorem transportRead_of_rx {s : State} {bytes tail : List Byte} {n : Nat} (hn : bytes.length = n)
    (h : bytes ++ tail <+: s.tr.rx) :
    (transportRead n s).1 = bytes ∧ tail <+: (transportRead n s).2.tr.rx :=
  transportRead_of_prefix hn (h.trans (List.prefix_append _ _))

theorem takeWrite_answers (t : Transport) :
    t.takeWrite.2.writeAns = t.writeAns.tail ∧ t.takeWrite.2.flushAns = t.flushAns ∧
      t.takeWrite.2.arrivals = t.arrivals := by
  unfold Transport.takeWrite; split <;> simp_all

theorem takeFlush_answers (t : Transport) :
    t.takeFlush.2.writeAns = t.writeAns ∧ t.takeFlush.2.flushAns = t.flushAns.tail ∧
      t.takeFlush.2.arrivals = t.arrivals := by
  unfold Transport.takeFlush; split <;> simp_all

theorem takeArrival_answers (t : Transport) :
    t.takeArrival.2.writeAns = t.writeAns ∧ t.takeArrival.2.flushAns = t.flushAns := by
  unfold Transport.takeArrival; split <;> simp

theorem transportRead_answers (n : Nat) (s : State) :
    (transportRead n s).2.tr.writeAns = s.tr.writeAns ∧ (transportRead n s).2.tr.flushAns = s.tr.flushAns := by
  simp [transportRead, Transport.record, takeArrival_answers]

/-- A request whose write and flush succeed (R119): the stream and the coming arrivals are as they were. -/
theorem sendRequest_ok {ch : Byte} {cmd : WireCmd} {pay : List Byte} {n : Nat} {s : State}
    (hw : s.tr.writeAns.head? = some true) (hf : s.tr.flushAns.head? = some true) :
    (sendRequest ch cmd pay n s).1 = true ∧ (sendRequest ch cmd pay n s).2.tr.rx = s.tr.rx ∧
      (sendRequest ch cmd pay n s).2.tr.arrivals = s.tr.arrivals ∧
      (sendRequest ch cmd pay n s).2.tr.writeAns = s.tr.writeAns.tail ∧
      (sendRequest ch cmd pay n s).2.tr.flushAns = s.tr.flushAns.tail ∧
      (sendRequest ch cmd pay n s).2.tr.asks = s.tr.asks := by
  cases hv : s.tr.writeAns with
  | nil => simp [hv] at hw
  | cons w ws =>
    cases hg : s.tr.flushAns with
    | nil => simp [hg] at hf
    | cons f fs =>
      simp only [hv, hg, List.head?_cons, Option.some.injEq] at hw hf
      subst hw; subst hf
      simp [sendRequest, transportWrite, transportFlush, Transport.takeWrite, Transport.takeFlush,
        Transport.record, hv, hg]

/-- What arrives by the next read depends on the script of arrivals and the counter of free answers alone (R58). -/
theorem takeArrival_congr {t t' : Transport} (h : t'.arrivals = t.arrivals) (k : t'.asks = t.asks) :
    t'.takeArrival.1 = t.takeArrival.1 := by
  unfold Transport.takeArrival
  rw [h, k]
  split <;> rfl

/-- The settling wait leaves the stream and the coming answers alone (R330). -/
theorem waitSettle_tr (cmd : WireCmd) (s : State) :
    (waitSettle cmd s).tr.rx = s.tr.rx ∧ (waitSettle cmd s).tr.arrivals = s.tr.arrivals ∧
      (waitSettle cmd s).tr.writeAns = s.tr.writeAns ∧ (waitSettle cmd s).tr.flushAns = s.tr.flushAns ∧
      (waitSettle cmd s).tr.asks = s.tr.asks := by
  simp [waitSettle, Transport.record]

/-- A response that stands whole in the stream by the first read is read whole, and no byte more (R114). -/
theorem readResponse_answered {ch status : Byte} {pay tail : List Byte} {s : State} (hl : pay.length ≤ 255)
    (h : encodeResponse ch status pay ++ tail <+: s.tr.rx ++ s.tr.takeArrival.1) :
    (readResponse s).1 = .response ch status pay ∧ tail <+: (readResponse s).2.tr.rx ∧
      (readResponse s).2.tr.writeAns = s.tr.writeAns ∧ (readResponse s).2.tr.flushAns = s.tr.flushAns := by
  have hp : [ch, status, byteOf pay.length] ++ (pay ++ tail) <+:
      (s.setPhase .rxh).tr.rx ++ (s.setPhase .rxh).tr.takeArrival.1 := by
    simpa [encodeResponse] using h
  obtain ⟨h1, h2⟩ := transportRead_of_prefix (n := 3) rfl hp
  obtain ⟨w1, f1⟩ := transportRead_answers 3 (s.setPhase .rxh)
  have hb : (byteOf pay.length).toNat = pay.length := by simp [byteOf]; omega
  simp only [readResponse, h1, readPayload]
  by_cases h0 : byteOf pay.length = 0
  · have hz : pay = [] := by
      rw [h0] at hb; exact List.eq_nil_of_length_eq_zero hb.symm
    subst hz
    simp only [List.length_nil]
    exact ⟨rfl, by simpa using h2, by simpa using w1, by simpa using f1⟩
  · simp only [h0, ite_false]
    have h3 : pay ++ tail <+: ((((transportRead 3 (s.setPhase .rxh)).2.setRxhdr
        [ch, status, byteOf pay.length]).setPhase .rxp)).tr.rx := by simpa using h2
    obtain ⟨h4, h5⟩ := transportRead_of_rx (n := (byteOf pay.length).toNat) hb.symm h3
    obtain ⟨w2, f2⟩ := transportRead_answers (byteOf pay.length).toNat (((transportRead 3 (s.setPhase .rxh)).2.setRxhdr
        [ch, status, byteOf pay.length]).setPhase .rxp)
    refine ⟨?_, by simpa using h5, by simpa [w1] using w2, by simpa [f1] using f2⟩
    rw [h4]
    simp [hb]

/-- An exchange leaves its result in `xres` and stands in `PH_COMMIT` (R120). -/
theorem exchange_xres (ch : Byte) (cmd : WireCmd) (pay : List Byte) (n : Nat) (s : State) :
    (exchange ch cmd pay n s).2.seq.xres = (exchange ch cmd pay n s).1 := by
  unfold exchange
  dsimp only
  split
  · split <;> rfl
  · rfl

/-- An exchange whose request goes out, and whose response stands whole in the stream by its first read, gives what
`Validate` says of the response, and leaves what stands behind it unread (R115, R120). -/
theorem exchange_standing {ch ch' status : Byte} {cmd : WireCmd} {pay rpay tail : List Byte} {n : Nat} {s : State}
    (hl : rpay.length ≤ 255) (hw : s.tr.writeAns.head? = some true) (hf : s.tr.flushAns.head? = some true)
    (h : encodeResponse ch' status rpay ++ tail <+: s.tr.rx ++ s.tr.takeArrival.1) :
    (exchange ch cmd pay n s).1 = validate s.cfg ch n ch' status rpay ∧
      tail <+: (exchange ch cmd pay n s).2.tr.rx ∧
      (exchange ch cmd pay n s).2.tr.writeAns = s.tr.writeAns.tail ∧
      (exchange ch cmd pay n s).2.tr.flushAns = s.tr.flushAns.tail := by
  obtain ⟨h1, h2, h3, h4, h5, h6⟩ := sendRequest_ok (ch := ch) (cmd := cmd) (pay := pay) (n := n) hw hf
  obtain ⟨k2, k3, k4, k5, k6⟩ := waitSettle_tr cmd (sendRequest ch cmd pay n s).2
  obtain ⟨m1, m2, m3, m4⟩ := readResponse_answered (s := waitSettle cmd (sendRequest ch cmd pay n s).2)
    (ch := ch') (status := status) (tail := tail) hl
    (by rw [k2, h2, takeArrival_congr (k3.trans h3) (k6.trans h6)]; exact h)
  simp only [exchange, h1, m1, ite_true]
  exact ⟨trivial, by simpa using m2, by simp [m3, k4, h4], by simp [m4, k5, h5]⟩

/-- The same where the arrival is scripted (R115, R120). -/
theorem exchange_answered {ch ch' status : Byte} {cmd : WireCmd} {pay rpay tail : List Byte} {n : Nat} {s : State}
    (hl : rpay.length ≤ 255) (h : Answers s (encodeResponse ch' status rpay ++ tail)) :
    (exchange ch cmd pay n s).1 = validate s.cfg ch n ch' status rpay ∧
      tail <+: (exchange ch cmd pay n s).2.tr.rx ∧
      (exchange ch cmd pay n s).2.tr.writeAns = s.tr.writeAns.tail ∧
      (exchange ch cmd pay n s).2.tr.flushAns = s.tr.flushAns.tail :=
  exchange_standing hl h.1 h.2.1 (by rw [takeArrival_of_ne h.2.2.1]; exact h.2.2.2)

/-- A successful answer of the expected length on the right channel validates (R115). -/
theorem validate_success {c : Config} {ch : Byte} {pay : List Byte} {n : Nat} (hs : c.stSuccess ≠ c.stFailure)
    (hn : pay.length = n) : validate c ch n ch c.stSuccess pay = .ok pay := by
  simp [validate, statusClass, hs, hn]

/-- The failure status gives `StatusFailure`, whatever the length (R115, R86). -/
theorem validate_failure (c : Config) (ch : Byte) (pay : List Byte) (n : Nat) :
    validate c ch n ch c.stFailure pay = .err .statusFailure (infoOf c.stFailure (byteOf pay.length)) := by
  simp [validate, statusClass]

/-- An exchange whose device sends nothing before the timeout gives `ShortHeader` (R114, R120). -/
theorem exchange_silent {ch : Byte} {cmd : WireCmd} {pay : List Byte} {n : Nat} {s : State} (h : StaysSilent s) :
    (exchange ch cmd pay n s).1 = .err .shortHeader 0 := by
  obtain ⟨hw, hf, hx, ha⟩ := h
  obtain ⟨h1, h2, h3, -, -, -⟩ := sendRequest_ok (ch := ch) (cmd := cmd) (pay := pay) (n := n) hw hf
  obtain ⟨k2, k3, -, -, -⟩ := waitSettle_tr cmd (sendRequest ch cmd pay n s).2
  have hne : (waitSettle cmd (sendRequest ch cmd pay n s).2).tr.arrivals ≠ [] := by
    rw [k3, h3]; intro e; simp [e] at ha
  have e : (transportRead 3 ((waitSettle cmd (sendRequest ch cmd pay n s).2).setPhase .rxh)).1 = [] := by
    have := takeArrival_of_ne (t := (waitSettle cmd (sendRequest ch cmd pay n s).2).tr) hne
    rw [k3, h3] at this
    cases hv : s.tr.arrivals with
    | nil => simp [hv] at ha
    | cons a as =>
      simp only [hv, List.head?_cons, Option.some.injEq] at ha
      simp [transportRead, this, takeArrival_rx, k2, h2, hx, hv, ha]
  simp [exchange, h1, readResponse, e, infoOf, byteOf]

/-- An exchange whose write fails ends there (R119, R120): nothing is flushed and nothing is read. -/
theorem exchange_writeFail {ch : Byte} {cmd : WireCmd} {pay : List Byte} {n : Nat} {s : State}
    (h : WriteWillFail s) :
    (exchange ch cmd pay n s).1 = .err .writeFail 0 ∧ (exchange ch cmd pay n s).2.tr.rx = s.tr.rx ∧
      (exchange ch cmd pay n s).2.tr.link = s.tr.link ++ [.write (wireFrame s.cfg ch cmd pay) false] := by
  have h1 := takeWrite_of_head h
  have hr := takeWrite_rx s.tr
  refine ⟨?_, ?_, ?_⟩ <;>
    simp [exchange, sendRequest, transportWrite, h1] <;> simp [Transport.record, hr]

/-- An exchange whose flush fails ends there (R119, R120): nothing is waited for and nothing is read. -/
theorem exchange_flushFail {ch : Byte} {cmd : WireCmd} {pay : List Byte} {n : Nat} {s : State}
    (hw : s.tr.writeAns.head? = some true) (hf : s.tr.flushAns.head? = some false) :
    (exchange ch cmd pay n s).1 = .err .writeFail 0 ∧ (exchange ch cmd pay n s).2.tr.rx = s.tr.rx ∧
      (exchange ch cmd pay n s).2.tr.link =
        s.tr.link ++ [.write (wireFrame s.cfg ch cmd pay) true, .flush false] := by
  cases hv : s.tr.writeAns with
  | nil => simp [hv] at hw
  | cons w ws =>
    cases hg : s.tr.flushAns with
    | nil => simp [hg] at hf
    | cons f fs =>
      simp only [hv, hg, List.head?_cons, Option.some.injEq] at hw hf
      subst hw; subst hf
      simp [exchange, sendRequest, transportWrite, transportFlush, Transport.takeWrite, Transport.takeFlush,
        Transport.record, hv, hg]

/-- An exchange reads nothing of the state but the configuration and the transport (R120). -/
theorem exchange_congr (ch : Byte) (cmd : WireCmd) (pay : List Byte) (n : Nat) {s s' : State} (hc : s'.cfg = s.cfg)
    (ht : s'.tr = s.tr) : (exchange ch cmd pay n s').1 = (exchange ch cmd pay n s).1 ∧
      (exchange ch cmd pay n s').2.tr = (exchange ch cmd pay n s).2.tr := by
  have rd : ∀ (k : Nat) (u u' : State), u'.tr = u.tr → (transportRead k u').1 = (transportRead k u).1 ∧
      (transportRead k u').2.tr = (transportRead k u).2.tr := by
    intro k u u' h; simp [transportRead, h]
  have rp : ∀ (a b l : Byte) (u u' : State), u'.tr = u.tr → (readPayload a b l u').1 = (readPayload a b l u).1 ∧
      (readPayload a b l u').2.tr = (readPayload a b l u).2.tr := by
    intro a b l u u' h
    unfold readPayload
    split
    · exact ⟨rfl, h⟩
    · obtain ⟨e1, e2⟩ := rd l.toNat (u.setPhase .rxp) (u'.setPhase .rxp) h
      simp [e1, e2]
  have rr : ∀ u u' : State, u'.tr = u.tr → (readResponse u').1 = (readResponse u).1 ∧
      (readResponse u').2.tr = (readResponse u).2.tr := by
    intro u u' h
    obtain ⟨e1, e2⟩ := rd 3 (u.setPhase .rxh) (u'.setPhase .rxh) h
    simp only [readResponse, e1]
    split
    · exact rp _ _ _ _ _ (by simpa using e2)
    · exact ⟨rfl, by simpa using e2⟩
  have sr : (sendRequest ch cmd pay n s').1 = (sendRequest ch cmd pay n s).1 ∧
      (sendRequest ch cmd pay n s').2.tr = (sendRequest ch cmd pay n s).2.tr := by
    have hcond : (transportWrite (wireFrame s.cfg ch cmd pay) (s'.loadFrame ch cmd n (wireFrame s.cfg ch cmd pay))).1 =
        (transportWrite (wireFrame s.cfg ch cmd pay) (s.loadFrame ch cmd n (wireFrame s.cfg ch cmd pay))).1 := by
      simp [transportWrite, ht]
    simp only [sendRequest, hc, hcond]
    split <;> simp [transportWrite, transportFlush, ht]
  have hw : (waitSettle cmd (sendRequest ch cmd pay n s').2).tr =
      (waitSettle cmd (sendRequest ch cmd pay n s).2).tr := by
    have c1 := (sendRequest_spec ch cmd pay n s').1.cfg
    have c2 := (sendRequest_spec ch cmd pay n s).1.cfg
    simp [waitSettle, sr.2, c1, c2, hc]
  obtain ⟨q1, q2⟩ := rr _ _ hw
  simp only [exchange, sr.1, q1, hc]
  split
  · split <;> exact ⟨rfl, by simpa using q2⟩
  · exact ⟨rfl, by simpa using sr.2⟩

/-- `ExchangeCh` whose SUCCESS response stands in the stream by its first read gives the payload, and leaves what stands
behind it unread (R121). -/
theorem exchangeCh_standing {s : State} {c : Nat} {cmd : WireCmd} {pay rpay tail : List Byte} {n : Nat}
    (hc : s.cfg.Wf) (hn : rpay.length = n) (hl : rpay.length ≤ 255) (hw : s.tr.writeAns.head? = some true)
    (hf : s.tr.flushAns.head? = some true)
    (h : encodeResponse (byteOf c) s.cfg.stSuccess rpay ++ tail <+: s.tr.rx ++ s.tr.takeArrival.1) :
    (exchangeCh c cmd pay n s).1 = .ok rpay ∧ tail <+: (exchangeCh c cmd pay n s).2.tr.rx ∧
      (exchangeCh c cmd pay n s).2.tr.writeAns = s.tr.writeAns.tail ∧
      (exchangeCh c cmd pay n s).2.tr.flushAns = s.tr.flushAns.tail := by
  obtain ⟨e1, e2, e3, e4⟩ := exchange_standing (ch := byteOf c) (cmd := cmd) (pay := pay) (n := n) hl hw hf h
  rw [validate_success hc.2.2.2.2.2 hn] at e1
  have : (exchangeCh c cmd pay n s).2 = (exchange (byteOf c) cmd pay n s).2 := by
    simp [exchangeCh, e1, downgradeOn]
  rw [this]
  exact ⟨e1, e2, e3, e4⟩

/-- The same where the arrival is scripted (R121). -/
theorem exchangeCh_answered {s : State} {c : Nat} {cmd : WireCmd} {pay rpay tail : List Byte} {n : Nat}
    (hc : s.cfg.Wf) (hn : rpay.length = n) (hl : rpay.length ≤ 255)
    (h : Answers s (encodeResponse (byteOf c) s.cfg.stSuccess rpay ++ tail)) :
    (exchangeCh c cmd pay n s).1 = .ok rpay ∧ tail <+: (exchangeCh c cmd pay n s).2.tr.rx ∧
      (exchangeCh c cmd pay n s).2.tr.writeAns = s.tr.writeAns.tail ∧
      (exchangeCh c cmd pay n s).2.tr.flushAns = s.tr.flushAns.tail :=
  exchangeCh_standing hc hn hl h.1 h.2.1 (by rw [takeArrival_of_ne h.2.2.1]; exact h.2.2.2)

/-- The same where the response already stands in the stream, whatever else arrives (R121). -/
theorem exchangeCh_rx {s : State} {c : Nat} {cmd : WireCmd} {pay rpay tail : List Byte} {n : Nat}
    (hc : s.cfg.Wf) (hn : rpay.length = n) (hl : rpay.length ≤ 255) (hw : s.tr.writeAns.head? = some true)
    (hf : s.tr.flushAns.head? = some true)
    (h : encodeResponse (byteOf c) s.cfg.stSuccess rpay ++ tail <+: s.tr.rx) :
    (exchangeCh c cmd pay n s).1 = .ok rpay ∧ tail <+: (exchangeCh c cmd pay n s).2.tr.rx ∧
      (exchangeCh c cmd pay n s).2.tr.writeAns = s.tr.writeAns.tail ∧
      (exchangeCh c cmd pay n s).2.tr.flushAns = s.tr.flushAns.tail :=
  exchangeCh_standing hc hn hl hw hf (h.trans (List.prefix_append _ _))

/-- A failing exchange on a channel reads nothing but the configuration and the transport, and clears the channel's ready
flag on a communication error with the downgrade on, else nothing (R121). -/
theorem exchangeCh_fails {c : Nat} {cmd : WireCmd} {pay : List Byte} {n : Nat} {s s' u : State} {cause : Cause}
    {info : BitVec 16} (hc : s'.cfg = s.cfg) (ht : s'.tr = s.tr) (h : exchangeCh c cmd pay n s = (.err cause info, u)) :
    (exchangeCh c cmd pay n s').1 = .err cause info ∧ (exchangeCh c cmd pay n s').2.tr = u.tr ∧
      (exchangeCh c cmd pay n s').2.ready =
        (if s.cfg.downgrade = true ∧ kindOf cause = .communication then s'.ready.set c false else s'.ready) := by
  obtain ⟨e1, e2⟩ := exchange_congr (byteOf c) cmd pay n hc ht
  have h1 : (exchange (byteOf c) cmd pay n s).1 = .err cause info := congrArg Prod.fst h
  have hu : u.tr = (exchange (byteOf c) cmd pay n s).2.tr := by
    rw [show u = (exchangeCh c cmd pay n s).2 by rw [h]]
    simp only [exchangeCh, h1, downgradeOn]
    split <;> simp
  have hcf := (exchange_spec (byteOf c) cmd pay n s').1.cfg
  rw [h1] at e1
  refine ⟨e1, ?_, ?_⟩
  · rw [hu, ← e2]
    simp only [exchangeCh, e1, downgradeOn]
    split <;> simp
  · simp only [exchangeCh, e1, downgradeOn, hcf, hc]
    cases cause <;> by_cases hd : s.cfg.downgrade <;> simp [downgrades, kindOf, hd, exchange_ready]

/-- An exchange on a channel that gives a payload reads nothing but the configuration and the transport, and leaves the
ready table alone (R121). -/
theorem exchangeCh_gives {c : Nat} {cmd : WireCmd} {pay p : List Byte} {n : Nat} {s s' u : State} (hc : s'.cfg = s.cfg)
    (ht : s'.tr = s.tr) (h : exchangeCh c cmd pay n s = (.ok p, u)) :
    (exchangeCh c cmd pay n s').1 = .ok p ∧ (exchangeCh c cmd pay n s').2.tr = u.tr ∧
      (exchangeCh c cmd pay n s').2.ready = s'.ready := by
  obtain ⟨e1, e2⟩ := exchange_congr (byteOf c) cmd pay n hc ht
  have h1 : (exchange (byteOf c) cmd pay n s).1 = .ok p := congrArg Prod.fst h
  have hu : u.tr = (exchange (byteOf c) cmd pay n s).2.tr := by
    rw [show u = (exchangeCh c cmd pay n s).2 by rw [h]]
    simp only [exchangeCh, h1, downgradeOn]
  rw [h1] at e1
  refine ⟨e1, ?_, ?_⟩
  · rw [hu, ← e2]
    simp only [exchangeCh, e1, downgradeOn]
  · simp only [exchangeCh, e1, downgradeOn, exchange_ready]

/-! The end of a host operation. -/

/-- A session's own result is the verdict's, and the rest of it is kept (R93). -/
theorem deliver_session (sid : Nat) (v : Verdict) (s : State) (h : sid < s.sessions.length) :
    (deliver sid v s).session sid = { s.session sid with result := resultOf s.draws v } := by
  simp only [deliver, bumpDraws_session]
  exact updSession_session_self s sid _ h

/-- Every other session is left alone (R277). -/
theorem deliver_session_ne (sid x : Nat) (v : Verdict) (s : State) (h : x ≠ sid) :
    (deliver sid v s).session x = s.session x := by
  simp [deliver, State.session, List.getD_eq_getElem?_getD, Ne.symm h]

/-- Whether or not the session exists, no token and no polling changes (R93). -/
theorem deliver_tokens (sid x : Nat) (v : Verdict) (s : State) :
    ((deliver sid v s).session x).holds = (s.session x).holds ∧
      ((deliver sid v s).session x).astate = (s.session x).astate := by
  by_cases hx : x = sid
  · subst hx
    by_cases h : x < s.sessions.length
    · simp [deliver_session x v s h]
    · simp [deliver, State.session, List.getD_eq_getElem?_getD, List.getElem?_eq_none (Nat.le_of_not_lt h)]
  · simp [deliver_session_ne sid x v s hx]

/-- A routed operation that is accepted answers the state its body leaves, with the result delivered (R28). -/
theorem runRouted_accepted {i : Instr} {sid : Nat} {body : State → Verdict × State} {s : State}
    (hw : wellFormed s.cfg i = true) (hb : s.seq.busy = false) :
    runRouted i sid body s =
      .next (deliver sid (body (s.accept i)).1 (body (s.accept i)).2).goIdle := by
  simp [runRouted, hw, hb]

end Sys2Proof.Machine
end

