-- ==== Sys2Proof/Laws/Loops.lean ====
section
/-! SUPPORT. What the loops over channels can do, said once: the broadcast, the probe, the scan and isPresent's loop. -/

namespace Sys2Proof.Machine

/-- What the body of every routed operation leaves alone, but for `BUF` under dataBlock and getAddress. -/
structure Kept (s t : State) : Prop where
  cfg : t.cfg = s.cfg
  sessions : t.sessions = s.sessions
  excl : t.excl = s.excl
  hreq : t.hreq = s.hreq
  agenda : t.agenda = s.agenda
  draws : t.draws = s.draws
  buf : t.buf = s.buf
  readyLen : t.ready.length = s.ready.length
  busy : t.seq.busy = s.seq.busy

theorem Kept.refl (s : State) : Kept s s := ⟨rfl, rfl, rfl, rfl, rfl, rfl, rfl, rfl, rfl⟩

theorem Kept.trans {s t u : State} (h : Kept s t) (k : Kept t u) : Kept s u :=
  ⟨k.cfg.trans h.cfg, k.sessions.trans h.sessions, k.excl.trans h.excl, k.hreq.trans h.hreq,
   k.agenda.trans h.agenda, k.draws.trans h.draws, k.buf.trans h.buf, k.readyLen.trans h.readyLen,
   k.busy.trans h.busy⟩

/-- Traffic is kept. -/
theorem Traffic.kept {s t : State} (h : Traffic s t) : Kept s t :=
  ⟨h.cfg, h.sessions, h.excl, h.hreq, h.agenda, h.draws, h.buf, h.readyLen, h.busy⟩

theorem Kept.setCursor (s : State) (c : Nat) : Kept s (s.setCursor c) := ⟨rfl, rfl, rfl, rfl, rfl, rfl, rfl, rfl, rfl⟩
theorem Kept.clearAddr (s : State) : Kept s s.clearAddr := ⟨rfl, rfl, rfl, rfl, rfl, rfl, rfl, rfl, rfl⟩
theorem Kept.setAddr (s : State) (a : DevAddr) : Kept s (s.setAddr a) := ⟨rfl, rfl, rfl, rfl, rfl, rfl, rfl, rfl, rfl⟩
theorem Kept.setSState (s : State) (t : SState) : Kept s (s.setSState t) := ⟨rfl, rfl, rfl, rfl, rfl, rfl, rfl, rfl, rfl⟩
theorem Kept.setCi (s : State) (c : Nat) : Kept s (s.setCi c) := ⟨rfl, rfl, rfl, rfl, rfl, rfl, rfl, rfl, rfl⟩
theorem Kept.setReady (s : State) (c : Nat) (b : Bool) : Kept s (s.setReady c b) :=
  ⟨rfl, rfl, rfl, rfl, rfl, rfl, rfl, by simp, rfl⟩
theorem Kept.logExchange (s : State) (sid : Nat) (op : HostOp) (c : Nat) (cmd : WireCmd) (r : XRes) :
    Kept s (s.logExchange sid op c cmd r) := ⟨rfl, rfl, rfl, rfl, rfl, rfl, rfl, rfl, rfl⟩

/-- `ci` and the log are no register the loops below test. -/
theorem Sent.of_tr {s s' t t' : State} {f : List (List Byte)} (h : Sent s t f) (hs : s'.tr = s.tr)
    (ht : t'.tr = t.tr) : Sent s' t' f := by
  simpa [Sent, hs, ht] using h

/-- The end of an accepted operation whose body has kept what `Kept` says: the session has the verdict's result, and
nothing else of the sessions, the tokens, the port and `BUF` has changed (R93, R277). -/
theorem Kept.delivered {s u : State} {i : Instr} {sid : Nat} (h : Kept (s.accept i) u) (v : Verdict)
    (hs : sid < s.sessions.length) :
    (((deliver sid v u).goIdle.session sid).result = resultOf s.draws v) ∧ SameMemory s (deliver sid v u).goIdle ∧
      SameTokens s (deliver sid v u).goIdle ∧ SameOthers sid s (deliver sid v u).goIdle ∧
      SamePort s (deliver sid v u).goIdle ∧ Idle (deliver sid v u).goIdle := by
  have hs' : sid < u.sessions.length := by simpa [h.sessions] using hs
  have hse : ∀ x, u.session x = s.session x := by intro x; simp [State.session, h.sessions]
  have hd := h.draws
  simp only [accept_draws] at hd
  refine ⟨by simp [deliver_session sid v u hs', hd], by simp [deliver, SameMemory, h.buf],
    ⟨by simp [deliver, h.excl], fun x => by simpa [hse] using deliver_tokens sid x v u⟩, fun x hx => ?_, ?_, ?_⟩
  · simp [deliver_session_ne sid x v u hx, hse]
  · simp [SamePort, deliver, h.cfg, h.hreq, h.agenda]
  · simp [Idle]

/-- The frames of a body are those of its operation. -/
theorem Sent.delivered {s u : State} {i : Instr} {f : List (List Byte)} (h : Sent (s.accept i) u f) (sid : Nat)
    (v : Verdict) : framesSent s (deliver sid v u).goIdle = f := by
  simpa [framesSent, newEvents, deliver] using h.frames

/-! The exchange on a channel, as far as other channels see it. -/

/-- `ExchangeCh(c, …)` leaves every other channel's ready flag alone (R121). -/
theorem exchangeCh_other (c x : Nat) (cmd : WireCmd) (pay : List Byte) (n : Nat) (s : State) (h : x ≠ c) :
    (exchangeCh c cmd pay n s).2.readyAt x = s.readyAt x := by
  rcases exchangeCh_ready c cmd pay n s with e | e
  · simp [State.readyAt, e]
  · simp [State.readyAt, e, List.getD_eq_getElem?_getD, List.getElem?_set_ne (Ne.symm h)]

/-! The broadcast (R163). -/

/-- The log record of one slot of a broadcast. -/
def slotKey (r : LogRec) : Nat × HostOp × Nat × WireCmd := (r.sid, r.op, r.ch, r.cmd)

/-- What a broadcast over distinct channels does (R163): it sends its command once to each channel that is ready, in
order, logs each slot, clears ready flags at most, and touches nothing else. -/
theorem broadcastOver_spec (sid : Nat) (op : HostOp) (cmd : WireCmd) (pay : List Byte) (cs : List Nat)
    (hnd : cs.Nodup) (s : State) :
    Kept s (broadcastOver sid op cmd pay cs s) ∧ SameSearch s (broadcastOver sid op cmd pay cs s) ∧
      (∀ x, (broadcastOver sid op cmd pay cs s).readyAt x = true → s.readyAt x = true) ∧
      Sent s (broadcastOver sid op cmd pay cs s)
        ((cs.filter s.readyAt).map (fun c => wireFrame s.cfg (byteOf c) cmd pay)) ∧
      ∃ recs, (broadcastOver sid op cmd pay cs s).log = s.log ++ recs ∧
        recs.map slotKey = cs.map (fun c => (sid, op, c, cmd)) ∧
        ∀ rec ∈ recs, (rec.outcome = .skipped ↔ s.readyAt rec.ch = false) := by
  induction cs generalizing s with
  | nil => exact ⟨Kept.refl s, ⟨rfl, rfl, rfl, rfl⟩, fun _ h => h, Sent.none rfl, [], by simp [broadcastOver]⟩
  | cons c cs ih =>
    have hc : ∀ x ∈ cs, x ≠ c := fun x hx e => (List.nodup_cons.1 hnd).1 (e ▸ hx)
    by_cases hr : s.readyAt c = true
    · let e := exchangeCh c cmd pay (respLenOf s.cfg cmd pay) (s.setCi c)
      have heq : broadcastOver sid op cmd pay (c :: cs) s =
          broadcastOver sid op cmd pay cs (e.2.logExchange sid op c cmd e.1) := by
        simp [broadcastOver, hr, e]
      obtain ⟨et, es⟩ := exchangeCh_spec c cmd pay (respLenOf s.cfg cmd pay) (s.setCi c)
      have eo : ∀ x ∈ cs, e.2.readyAt x = s.readyAt x := fun x hx => exchangeCh_other c x _ _ _ _ (hc x hx)
      obtain ⟨k, ss, rd, sn, recs, hl, hm, ho⟩ := ih (List.nodup_cons.1 hnd).2 (e.2.logExchange sid op c cmd e.1)
      have hf : cs.filter (e.2.logExchange sid op c cmd e.1).readyAt = cs.filter s.readyAt :=
        List.filter_congr (fun x hx => by simpa using eo x hx)
      rw [hf] at sn
      have hcfg : (e.2.logExchange sid op c cmd e.1).cfg = s.cfg := by simpa using et.cfg
      rw [heq]
      refine ⟨((Kept.setCi s c).trans (et.kept.trans (Kept.logExchange _ _ _ _ _ _))).trans k, ?_, ?_, ?_,
        { sid := sid, op := op, ch := c, cmd := cmd, outcome := logOutcome e.1 } :: recs, ?_, ?_, ?_⟩
      · have := et.cursor; have := et.lastAddr; have := et.addrValid; have := et.sstate
        simp_all [SameSearch, e]
      · intro x hx
        exact et.readyDown x (by simpa using rd x hx)
      · rw [List.filter_cons_of_pos hr, List.map_cons]
        rw [hcfg] at sn
        have := (Sent.of_tr (s' := s) (t' := e.2.logExchange sid op c cmd e.1) es rfl rfl).trans sn
        simpa using this
      · rw [hl]
        have := et.log
        simp_all [State.logExchange, e]
      · simpa [slotKey] using hm
      · intro rec hrec
        rcases List.mem_cons.1 hrec with rfl | hrec
        · rcases exchangeCh_cases c cmd pay (respLenOf s.cfg cmd pay) (s.setCi c) with ⟨p, hp, -⟩ | ⟨ca, inf, hp, -⟩
          · simp [e, hp, logOutcome, hr]
          · simp [e, hp, logOutcome, hr]
        · have hch : rec.ch ∈ cs := by
            have : slotKey rec ∈ cs.map (fun c => (sid, op, c, cmd)) := hm ▸ List.mem_map_of_mem hrec
            obtain ⟨y, hy, hk⟩ := List.mem_map.1 this
            have : y = rec.ch := congrArg (fun q => q.2.2.1) hk
            exact this ▸ hy
          rw [ho rec hrec]
          simp [eo _ hch]
    · have hr' : s.readyAt c = false := by simpa using hr
      have heq : broadcastOver sid op cmd pay (c :: cs) s =
          broadcastOver sid op cmd pay cs ((s.setCi c).logExchange sid op c cmd .skipped) := by
        simp [broadcastOver, hr']
      obtain ⟨k, ss, rd, sn, recs, hl, hm, ho⟩ := ih (List.nodup_cons.1 hnd).2
        ((s.setCi c).logExchange sid op c cmd .skipped)
      rw [heq]
      refine ⟨((Kept.setCi s c).trans (Kept.logExchange _ _ _ _ _ _)).trans k, ss, rd, ?_,
        { sid := sid, op := op, ch := c, cmd := cmd, outcome := .skipped } :: recs, ?_, ?_, ?_⟩
      · rw [List.filter_cons_of_neg (by simp [hr'])]
        exact Sent.of_tr sn rfl rfl
      · rw [hl]; simp [State.logExchange, logOutcome]
      · simpa [slotKey] using hm
      · intro rec hrec
        rcases List.mem_cons.1 hrec with rfl | hrec
        · simp [hr']
        · exact ho rec hrec

/-! The probe (R164). -/

/-- What a probe over distinct channels that exist does (R164): it pings each once, in order, logs each, and a channel
it pinged ends ready exactly if its record says `Ok`; the result is whether one did. -/
theorem probeOver_spec (sid : Nat) (op : HostOp) (cs : List Nat) (hnd : cs.Nodup) (any : Bool) (s : State)
    (hin : ∀ c ∈ cs, c < s.ready.length) :
    Kept s (probeOver sid op cs any s).2 ∧ SameSearch s (probeOver sid op cs any s).2 ∧
      (∀ x, x ∉ cs → (probeOver sid op cs any s).2.readyAt x = s.readyAt x) ∧
      Sent s (probeOver sid op cs any s).2 (cs.map (fun c => wireFrame s.cfg (byteOf c) .pingChannel [])) ∧
      ((probeOver sid op cs any s).1 = true ↔
        (any = true ∨ ∃ c ∈ cs, (probeOver sid op cs any s).2.readyAt c = true)) ∧
      ∃ recs, (probeOver sid op cs any s).2.log = s.log ++ recs ∧
        recs.map slotKey = cs.map (fun c => (sid, op, c, .pingChannel)) ∧
        ∀ rec ∈ recs, ((probeOver sid op cs any s).2.readyAt rec.ch = true ↔ rec.outcome = .ok) := by
  induction cs generalizing s any with
  | nil =>
    exact ⟨Kept.refl s, ⟨rfl, rfl, rfl, rfl⟩, fun _ _ => rfl, Sent.none rfl, by simp [probeOver], [],
      by simp [probeOver]⟩
  | cons c cs ih =>
    have hcn : c ∉ cs := (List.nodup_cons.1 hnd).1
    let e := exchange (byteOf c) .pingChannel [] (respLenOf s.cfg .pingChannel []) ((s.setCi c).setReady c false)
    obtain ⟨et, es⟩ := exchange_spec (byteOf c) .pingChannel [] (respLenOf s.cfg .pingChannel [])
      ((s.setCi c).setReady c false)
    have er : e.2.ready = s.ready.set c false := exchange_ready _ _ _ _ _
    have hlt := hin c (List.mem_cons_self ..)
    -- the state the loop goes on from, for either answer
    have main : ∀ (b : Bool) (u : State), (logOutcome e.1 = .ok ↔ b = true) →
        u = (e.2.setReady c b).logExchange sid op c .pingChannel e.1 →
        probeOver sid op (c :: cs) any s = probeOver sid op cs (any || b) u →
        Kept s (probeOver sid op (c :: cs) any s).2 ∧ SameSearch s (probeOver sid op (c :: cs) any s).2 ∧
        (∀ x, x ∉ c :: cs → (probeOver sid op (c :: cs) any s).2.readyAt x = s.readyAt x) ∧
        Sent s (probeOver sid op (c :: cs) any s).2
          ((c :: cs).map (fun c => wireFrame s.cfg (byteOf c) .pingChannel [])) ∧
        ((probeOver sid op (c :: cs) any s).1 = true ↔
          (any = true ∨ ∃ x ∈ c :: cs, (probeOver sid op (c :: cs) any s).2.readyAt x = true)) ∧
        ∃ recs, (probeOver sid op (c :: cs) any s).2.log = s.log ++ recs ∧
          recs.map slotKey = (c :: cs).map (fun c => (sid, op, c, .pingChannel)) ∧
          ∀ rec ∈ recs, ((probeOver sid op (c :: cs) any s).2.readyAt rec.ch = true ↔ rec.outcome = .ok) := by
      intro b u hoc hu heq
      have hk : Kept s u := by
        rw [hu]
        exact (((Kept.setCi s c).trans (Kept.setReady _ c false)).trans et.kept).trans
          ((Kept.setReady _ c b).trans (Kept.logExchange _ _ _ _ _ _))
      have hur : ∀ x, x ≠ c → u.readyAt x = s.readyAt x := by
        intro x hx
        rw [hu]
        simp [State.readyAt, er, List.getD_eq_getElem?_getD, List.getElem?_set_ne (Ne.symm hx)]
      have huc : u.readyAt c = b := by
        rw [hu]
        simp [State.readyAt, er, List.getD_eq_getElem?_getD, hlt]
      have hul : u.log = s.log ++ [{ sid := sid, op := op, ch := c, cmd := .pingChannel, outcome := logOutcome e.1 }] := by
        rw [hu]
        have := et.log
        simp_all [State.logExchange, e]
      have hus : SameSearch s u := by
        rw [hu]
        have := et.cursor; have := et.lastAddr; have := et.addrValid; have := et.sstate
        simp_all [SameSearch, e]
      have hut : Sent s u [wireFrame s.cfg (byteOf c) .pingChannel []] := by
        rw [hu]
        exact Sent.of_tr es rfl rfl
      obtain ⟨k, ss, rd, sn, an, recs, hl, hm, ho⟩ := ih (List.nodup_cons.1 hnd).2 (any || b) u
        (fun x hx => by rw [hk.readyLen]; exact hin x (List.mem_cons_of_mem _ hx))
      have hcr : (probeOver sid op cs (any || b) u).2.readyAt c = b := by rw [rd c hcn, huc]
      rw [heq]
      refine ⟨hk.trans k, ?_, ?_, ?_, ?_,
        { sid := sid, op := op, ch := c, cmd := .pingChannel, outcome := logOutcome e.1 } :: recs, ?_, ?_, ?_⟩
      · exact ⟨ss.1.trans hus.1, ss.2.1.trans hus.2.1, ss.2.2.1.trans hus.2.2.1, ss.2.2.2.trans hus.2.2.2⟩
      · intro x hx
        simp only [List.mem_cons, not_or] at hx
        rw [rd x hx.2, hur x hx.1]
      · rw [hk.cfg] at sn
        simpa using hut.trans sn
      · rw [an]
        simp only [List.mem_cons, exists_eq_or_imp, hcr, Bool.or_eq_true]
        tauto
      · rw [hl, hul, List.append_assoc]; rfl
      · simpa [slotKey] using hm
      · intro rec hrec
        rcases List.mem_cons.1 hrec with rfl | hrec
        · simp [hcr, hoc]
        · exact ho rec hrec
    have hself : e.2.setReady c false = e.2 := by
      have : e.2.ready.set c false = e.2.ready := by rw [er]; simp
      simp only [State.setReady, this]
    rcases exchange_cases (byteOf c) .pingChannel [] (respLenOf s.cfg .pingChannel []) ((s.setCi c).setReady c false)
      with ⟨p, hp, -⟩ | ⟨ca, inf, hp, -⟩
    · have hp' : e.1 = .ok p := hp
      refine main true _ (by simp [hp', logOutcome]) rfl ?_
      simp [probeOver, hp, e]
    · have hp' : e.1 = .err ca inf := hp
      refine main false _ (by simp [hp', logOutcome]) rfl ?_
      rw [hself]
      simp [probeOver, hp, e]

/-! The search (R222, R228). -/

/-- What `FindOn` does (R228): it sends one or two frames to its channel; a hit records an address and downgrades
nothing, a miss leaves the recorded address alone; the cursor and the search state are not its business. -/
theorem findOn_spec (sid : Nat) (op : HostOp) (c : Nat) (cmd : WireCmd) (s : State) :
    Kept s (findOn sid op c cmd s).2 ∧ (findOn sid op c cmd s).2.cursor = s.cursor ∧
      (findOn sid op c cmd s).2.sstate = s.sstate ∧
      (∀ x, (findOn sid op c cmd s).2.readyAt x = true → s.readyAt x = true) ∧
      (∃ k, k ≤ 1 ∧ Sent s (findOn sid op c cmd s).2
        (wireFrame s.cfg (byteOf c) cmd [] :: List.replicate k (wireFrame s.cfg (byteOf c) .getAddress []))) ∧
      ((findOn sid op c cmd s).1 = true →
        (findOn sid op c cmd s).2.addrValid = true ∧ (findOn sid op c cmd s).2.ready = s.ready) ∧
      ((findOn sid op c cmd s).1 = false →
        (findOn sid op c cmd s).2.addrValid = s.addrValid ∧ (findOn sid op c cmd s).2.lastAddr = s.lastAddr) := by
  obtain ⟨rt, rs⟩ := exchangeCh_spec c cmd [] (respLenOf s.cfg cmd []) s
  have one : ∃ k, k ≤ 1 ∧ Sent s (exchangeCh c cmd [] (respLenOf s.cfg cmd []) s).2
      (wireFrame s.cfg (byteOf c) cmd [] :: List.replicate k (wireFrame s.cfg (byteOf c) .getAddress [])) :=
    ⟨0, by omega, rs⟩
  unfold findOn
  dsimp only
  split
  · rename_i pay hp
    split
    · obtain ⟨gt, gs⟩ := exchangeCh_spec c .getAddress []
        (respLenOf (exchangeCh c cmd [] (respLenOf s.cfg cmd []) s).2.cfg .getAddress [])
        (exchangeCh c cmd [] (respLenOf s.cfg cmd []) s).2
      have two : ∃ k, k ≤ 1 ∧ Sent s (exchangeCh c .getAddress []
          (respLenOf (exchangeCh c cmd [] (respLenOf s.cfg cmd []) s).2.cfg .getAddress [])
          (exchangeCh c cmd [] (respLenOf s.cfg cmd []) s).2).2
          (wireFrame s.cfg (byteOf c) cmd [] :: List.replicate k (wireFrame s.cfg (byteOf c) .getAddress [])) :=
        ⟨1, by omega, by simp only [rt.cfg] at gs ⊢; exact rs.trans gs⟩
      have t := rt.trans gt
      unfold fetchAddr
      dsimp only
      split
      · rename_i pay' hp'
        refine ⟨t.kept.trans (Kept.setAddr _ _), t.cursor, t.sstate, t.readyDown, ?_, fun _ => ⟨rfl, ?_⟩, by simp⟩
        · obtain ⟨k, hk, h⟩ := two
          exact ⟨k, hk, h.of_tr rfl rfl⟩
        · exact (exchangeCh_ok_ready hp').trans (exchangeCh_ok_ready hp)
      · exact ⟨t.kept, t.cursor, t.sstate, t.readyDown, two, by simp, fun _ => ⟨t.addrValid, t.lastAddr⟩⟩
      · refine ⟨t.kept.trans (Kept.logExchange _ _ _ _ _ _), t.cursor, t.sstate, t.readyDown, ?_, by simp,
          fun _ => ⟨t.addrValid, t.lastAddr⟩⟩
        obtain ⟨k, hk, h⟩ := two
        exact ⟨k, hk, h.of_tr rfl rfl⟩
    · exact ⟨rt.kept, rt.cursor, rt.sstate, rt.readyDown, one, by simp, fun _ => ⟨rt.addrValid, rt.lastAddr⟩⟩
  · exact ⟨rt.kept, rt.cursor, rt.sstate, rt.readyDown, one, by simp, fun _ => ⟨rt.addrValid, rt.lastAddr⟩⟩
  · refine ⟨rt.kept.trans (Kept.logExchange _ _ _ _ _ _), rt.cursor, rt.sstate, rt.readyDown, ?_, by simp,
      fun _ => ⟨rt.addrValid, rt.lastAddr⟩⟩
    obtain ⟨k, hk, h⟩ := one
    exact ⟨k, hk, h.of_tr rfl rfl⟩

/-- What a scan does (R222): it ends `Found` on a ready channel of its list with a valid address, or `Exhausted` with
the cursor at 0 and the recorded address as it was; it sends at most two frames for each channel, and only to channels
that are ready when it starts. -/
theorem scanOver_spec (sid : Nat) (op : HostOp) (cs : List Nat) (s : State) :
    Kept s (scanOver sid op cs s).2 ∧
      (∀ x, (scanOver sid op cs s).2.readyAt x = true → s.readyAt x = true) ∧
      (∃ fs, Sent s (scanOver sid op cs s).2 fs ∧ fs.length ≤ 2 * cs.length ∧
        ∀ f ∈ fs, ∃ c ∈ cs, s.readyAt c = true ∧ ∃ cmd, f = wireFrame s.cfg (byteOf c) cmd []) ∧
      ((scanOver sid op cs s).1 = true → (scanOver sid op cs s).2.sstate = .found ∧
        (scanOver sid op cs s).2.addrValid = true ∧ (scanOver sid op cs s).2.cursor ∈ cs ∧
        (scanOver sid op cs s).2.readyAt (scanOver sid op cs s).2.cursor = true) ∧
      ((scanOver sid op cs s).1 = false → (scanOver sid op cs s).2.sstate = .exhausted ∧
        (scanOver sid op cs s).2.cursor = 0 ∧ (scanOver sid op cs s).2.addrValid = s.addrValid ∧
        (scanOver sid op cs s).2.lastAddr = s.lastAddr) := by
  induction cs generalizing s with
  | nil =>
    exact ⟨(Kept.setSState s _).trans (Kept.setCursor _ _), fun _ h => h, ⟨[], Sent.none rfl, by simp, by simp⟩,
      by simp [scanOver], by simp [scanOver]⟩
  | cons c cs ih =>
    have k0 : Kept s (((s.setSState .searching).setCursor c).setCi c) :=
      ((Kept.setSState s _).trans (Kept.setCursor _ _)).trans (Kept.setCi _ _)
    by_cases hr : s.readyAt c = true
    · obtain ⟨fk, fc, fst, frd, ⟨k, hk, fsn⟩, fhit, fmiss⟩ := findOn_spec sid op c .findFirst
        (((s.setSState .searching).setCursor c).setCi c)
      have hfr : ∀ f ∈ wireFrame s.cfg (byteOf c) .findFirst [] ::
          List.replicate k (wireFrame s.cfg (byteOf c) .getAddress []),
          s.readyAt c = true ∧ ∃ cmd, f = wireFrame s.cfg (byteOf c) cmd [] := by
        intro f hf
        rcases List.mem_cons.1 hf with rfl | hf
        · exact ⟨hr, _, rfl⟩
        · exact ⟨hr, _, (List.mem_replicate.1 hf).2⟩
      cases hb : (findOn sid op c .findFirst (((s.setSState .searching).setCursor c).setCi c)).1 with
      | true =>
        have heq : scanOver sid op (c :: cs) s =
            (true, (findOn sid op c .findFirst (((s.setSState .searching).setCursor c).setCi c)).2.setSState
              .found) := by
          simp [scanOver, hr, hb]
        rw [heq]
        refine ⟨(k0.trans fk).trans (Kept.setSState _ _), frd, ⟨_, fsn.of_tr rfl rfl, ?_, ?_⟩, ?_, by simp⟩
        · simp only [List.length_cons, List.length_replicate]; omega
        · exact fun f hf => ⟨c, List.mem_cons_self .., hfr f hf⟩
        · intro _
          refine ⟨rfl, (fhit hb).1, by simp [fc], ?_⟩
          simpa [State.readyAt, (fhit hb).2, fc] using hr
      | false =>
        obtain ⟨ik, ird, ⟨fs, isn, ilen, ifr⟩, ihit, imiss⟩ := ih
          (findOn sid op c .findFirst (((s.setSState .searching).setCursor c).setCi c)).2
        have heq : scanOver sid op (c :: cs) s = scanOver sid op cs
            (findOn sid op c .findFirst (((s.setSState .searching).setCursor c).setCi c)).2 := by
          simp [scanOver, hr, hb]
        have hcfg : (findOn sid op c .findFirst (((s.setSState .searching).setCursor c).setCi c)).2.cfg = s.cfg :=
          fk.cfg
        rw [heq]
        refine ⟨(k0.trans fk).trans ik, fun x hx => frd x (ird x hx), ⟨_, fsn.of_tr rfl rfl |>.trans isn, ?_, ?_⟩,
          ?_, ?_⟩
        · simp only [List.length_append, List.length_cons, List.length_replicate]; omega
        · intro f hf
          rcases List.mem_append.1 hf with hf | hf
          · exact ⟨c, List.mem_cons_self .., hfr f hf⟩
          · obtain ⟨x, hx, hxr, cmd, e⟩ := ifr f hf
            exact ⟨x, List.mem_cons_of_mem _ hx, frd x hxr, cmd, by rw [e, hcfg]⟩
        · intro h
          obtain ⟨a, b, d, e⟩ := ihit h
          exact ⟨a, b, List.mem_cons_of_mem _ d, e⟩
        · intro h
          obtain ⟨a, b, d, e⟩ := imiss h
          exact ⟨a, b, d.trans (fmiss hb).1, e.trans (fmiss hb).2⟩
    · have hr' : s.readyAt c = false := by simpa using hr
      have heq : scanOver sid op (c :: cs) s =
          scanOver sid op cs (((s.setSState .searching).setCursor c).setCi c) := by
        simp [scanOver, hr']
      obtain ⟨ik, ird, ⟨fs, isn, ilen, ifr⟩, ihit, imiss⟩ := ih (((s.setSState .searching).setCursor c).setCi c)
      rw [heq]
      refine ⟨k0.trans ik, ird, ⟨fs, isn.of_tr rfl rfl, ?_, ?_⟩, ?_, imiss⟩
      · simp only [List.length_cons]; omega
      · intro f hf
        obtain ⟨x, hx, hxr, e⟩ := ifr f hf
        exact ⟨x, List.mem_cons_of_mem _ hx, hxr, e⟩
      · intro h
        obtain ⟨a, b, d, e⟩ := ihit h
        exact ⟨a, b, List.mem_cons_of_mem _ d, e⟩

/-- `FindOn` only appends to the log (R172). -/
theorem findOn_log (sid : Nat) (op : HostOp) (c : Nat) (cmd : WireCmd) (s : State) :
    ∃ more, (findOn sid op c cmd s).2.log = s.log ++ more := by
  have e1 := (exchangeCh_spec c cmd [] (respLenOf s.cfg cmd []) s).1.log
  unfold findOn
  dsimp only
  split
  · split
    · have e2 := (exchangeCh_spec c .getAddress []
        (respLenOf (exchangeCh c cmd [] (respLenOf s.cfg cmd []) s).2.cfg .getAddress [])
        (exchangeCh c cmd [] (respLenOf s.cfg cmd []) s).2).1.log
      unfold fetchAddr
      dsimp only
      split
      · exact ⟨[], by simp [e2, e1]⟩
      · exact ⟨[], by simp [e2, e1]⟩
      · exact ⟨_, by simp only [State.logExchange, State.addLog, e2, e1]; rfl⟩
    · exact ⟨[], by simp [e1]⟩
  · exact ⟨[], by simp [e1]⟩
  · exact ⟨_, by simp only [State.logExchange, State.addLog, e1]; rfl⟩

/-- A scan only appends to the log (R172). -/
theorem scanOver_log (sid : Nat) (op : HostOp) (cs : List Nat) (s : State) :
    ∃ more, (scanOver sid op cs s).2.log = s.log ++ more := by
  induction cs generalizing s with
  | nil => exact ⟨[], by simp [scanOver]⟩
  | cons c cs ih =>
    obtain ⟨m1, h1⟩ := findOn_log sid op c .findFirst (((s.setSState .searching).setCursor c).setCi c)
    obtain ⟨m2, h2⟩ := ih (findOn sid op c .findFirst (((s.setSState .searching).setCursor c).setCi c)).2
    obtain ⟨m3, h3⟩ := ih (((s.setSState .searching).setCursor c).setCi c)
    simp only [scanOver]
    split
    · split
      · exact ⟨m1, h1⟩
      · exact ⟨m1 ++ m2, by rw [h2, h1, ← List.append_assoc]; rfl⟩
    · exact ⟨m3, h3⟩

/-! isPresent (R198, R200). -/

/-- What isPresent's loop over `cs`, begun in `s`, may end with (R198): the cursor is 0 on every exit, no other search
register changes, only ready channels are asked, under `AsNotFound` no error comes out, and where no channel is ready
nothing is sent and the answer is false. -/
structure Presented (addr : DevAddr) (cs : List Nat) (s : State) (r : Verdict × State) : Prop where
  kept : Kept s r.2
  cursor : r.2.cursor = 0
  lastAddr : r.2.lastAddr = s.lastAddr
  addrValid : r.2.addrValid = s.addrValid
  sstate : r.2.sstate = s.sstate
  readyDown : ∀ x, r.2.readyAt x = true → s.readyAt x = true
  sent : ∃ fs, Sent s r.2 fs ∧
    ∀ f ∈ fs, ∃ c ∈ cs, s.readyAt c = true ∧ f = wireFrame s.cfg (byteOf c) .searchRom (addrBytes addr)
  verdict : (∃ b, r.1 = .okBool b) ∨
    (s.cfg.presencePolicy = .raise ∧ ∃ cause info, r.1 = raise cause info ∧ cause ≠ .connectFail)
  noneReady : (∀ x ∈ cs, s.readyAt x = false) →
    r.1 = .okBool false ∧ r.2.tr = s.tr ∧ r.2.log = s.log ∧ r.2.ready = s.ready

/-- isPresent's loop (R198, R200). -/
theorem presentOver_spec (sid : Nat) (addr : DevAddr) (cs : List Nat) (s : State) :
    Presented addr cs s (presentOver sid addr cs s) := by
  induction cs generalizing s with
  | nil =>
    exact ⟨Kept.setCursor s 0, rfl, rfl, rfl, rfl, fun _ h => h, ⟨[], Sent.none rfl, by simp⟩,
      .inl ⟨false, rfl⟩, fun _ => ⟨rfl, rfl, rfl, rfl⟩⟩
  | cons c cs ih =>
    by_cases hr : s.readyAt c = true
    · obtain ⟨et, es⟩ := exchangeCh_spec c .searchRom (addrBytes addr)
        (respLenOf s.cfg .searchRom (addrBytes addr)) (s.setCi c)
      have k0 := (Kept.setCi s c).trans et.kept
      have hno : ¬∀ x ∈ c :: cs, s.readyAt x = false := fun h => by simp [h c (List.mem_cons_self ..)] at hr
      have hf : ∀ f ∈ [wireFrame s.cfg (byteOf c) .searchRom (addrBytes addr)], ∃ x ∈ c :: cs,
          s.readyAt x = true ∧ f = wireFrame s.cfg (byteOf x) .searchRom (addrBytes addr) := by
        intro f h
        exact ⟨c, List.mem_cons_self .., hr, by simpa using h⟩
      have go : ∀ u : State, Kept s u → u.lastAddr = s.lastAddr → u.addrValid = s.addrValid → u.sstate = s.sstate →
          (∀ x, u.readyAt x = true → s.readyAt x = true) → u.tr = (exchangeCh c .searchRom (addrBytes addr)
            (respLenOf s.cfg .searchRom (addrBytes addr)) (s.setCi c)).2.tr → Presented addr (c :: cs) s (presentOver sid addr cs u) := by
        intro u hk h1 h2 h3 h4 h5
        obtain ⟨ik, ic, il, iv, ist, ird, ⟨fs, isn, ifr⟩, ires, -⟩ := ih u
        have sn0 : Sent s u [wireFrame s.cfg (byteOf c) .searchRom (addrBytes addr)] := es.of_tr rfl h5
        refine ⟨hk.trans ik, ic, il.trans h1, iv.trans h2, ist.trans h3, fun x hx => h4 x (ird x hx),
          ⟨_, sn0.trans isn, fun f hfm => ?_⟩, by rw [hk.cfg] at ires; exact ires, fun h => absurd h hno⟩
        rcases List.mem_append.1 hfm with h | h
        · exact hf f h
        · obtain ⟨x, hx, hxr, e⟩ := ifr f h
          exact ⟨x, List.mem_cons_of_mem _ hx, h4 x hxr, by rw [e, hk.cfg]⟩
      have out : ∀ v : Verdict, ((∃ b, v = .okBool b) ∨ (s.cfg.presencePolicy = .raise ∧ ∃ cause info,
          v = raise cause info ∧ cause ≠ .connectFail)) → Presented addr (c :: cs) s
            (v, (exchangeCh c .searchRom (addrBytes addr) (respLenOf s.cfg .searchRom (addrBytes addr))
              (s.setCi c)).2.setCursor 0) := fun v hv =>
        ⟨k0.trans (Kept.setCursor _ _), rfl, et.lastAddr, et.addrValid, et.sstate, et.readyDown,
          ⟨_, es.of_tr rfl rfl, hf⟩, hv, fun h => absurd h hno⟩
      rcases exchangeCh_cases c .searchRom (addrBytes addr) (respLenOf s.cfg .searchRom (addrBytes addr)) (s.setCi c)
        with ⟨p, hp, -⟩ | ⟨ca, inf, hp, hca⟩
      · by_cases hfl : flagTrue s.cfg (soleByte s.draws c p) = true
        · simp only [presentOver, setCi_readyAt, hr, ite_true, hp, hfl]
          exact out _ (.inl ⟨true, rfl⟩)
        · simp only [presentOver, setCi_readyAt, hr, ite_true, hp, hfl]
          exact go _ k0 et.lastAddr et.addrValid et.sstate et.readyDown rfl
      · cases hpol : s.cfg.presencePolicy with
        | raise =>
          simp only [presentOver, setCi_readyAt, hr, ite_true, hp, hpol]
          exact out _ (.inr ⟨hpol, ca, inf, rfl, hca⟩)
        | asNotFound =>
          simp only [presentOver, setCi_readyAt, hr, ite_true, hp, hpol]
          exact go _ ((k0.trans (Kept.setCursor _ _)).trans (Kept.logExchange _ _ _ _ _ _)) et.lastAddr et.addrValid
            et.sstate et.readyDown rfl
    · have hr' : s.readyAt c = false := by simpa using hr
      have heq : presentOver sid addr (c :: cs) s = presentOver sid addr cs (s.setCi c) := by
        simp [presentOver, hr']
      obtain ⟨ik, ic, il, iv, ist, ird, ⟨fs, isn, ifr⟩, ires, inone⟩ := ih (s.setCi c)
      rw [heq]
      refine ⟨(Kept.setCi s c).trans ik, ic, il, iv, ist, ird, ⟨fs, isn.of_tr rfl rfl, ?_⟩, ires, fun h => ?_⟩
      · intro f hfm
        obtain ⟨x, hx, hxr, e⟩ := ifr f hfm
        exact ⟨x, List.mem_cons_of_mem _ hx, hxr, e⟩
      · exact inone (fun x hx => h x (List.mem_cons_of_mem _ hx))

/-! The loops against a device whose answers are known. -/

/-- What a device answers to the probe's ping of channel `x`: SUCCESS on the channels of `up`, else the failure status. -/
abbrev pingAnswer (c : Config) (up : Nat → Bool) (pong : List Byte) (x : Nat) : List Byte :=
  if up x then encodeResponse (byteOf x) c.stSuccess pong else encodeResponse (byteOf x) c.stFailure []

theorem head_of_take {l : List Bool} {k : Nat} (h : l.take (k + 1) = List.replicate (k + 1) true) :
    l.head? = some true ∧ l.tail.take k = List.replicate k true := by
  cases l with
  | nil => simp [List.replicate_succ] at h
  | cons a l => simpa [List.replicate_succ] using h

/-- A probe whose pings go out and are all answered (R164): the table is what the device said, and what stands behind
the answers is still there. -/
theorem probeOver_standing (sid : Nat) (op : HostOp) (up : Nat → Bool) (pong tail : List Byte) (k : Nat)
    (cs : List Nat) (any : Bool) (s : State) (hc : s.cfg.Wf) (hnd : cs.Nodup)
    (hin : ∀ c ∈ cs, c < s.ready.length) (hp : pong.length = s.cfg.respLen.pingChannel.toNat)
    (hw : s.tr.writeAns.take (cs.length + k) = List.replicate (cs.length + k) true)
    (hf : s.tr.flushAns.take (cs.length + k) = List.replicate (cs.length + k) true)
    (h : cs.flatMap (pingAnswer s.cfg up pong) ++ tail <+: s.tr.rx ++ s.tr.takeArrival.1) :
    (∀ x ∈ cs, (probeOver sid op cs any s).2.readyAt x = up x) ∧
      (probeOver sid op cs any s).2.tr.writeAns.take k = List.replicate k true ∧
      (probeOver sid op cs any s).2.tr.flushAns.take k = List.replicate k true ∧
      tail <+: (probeOver sid op cs any s).2.tr.rx ++ (probeOver sid op cs any s).2.tr.takeArrival.1 := by
  induction cs generalizing s any with
  | nil => exact ⟨by simp, by simpa [probeOver] using hw, by simpa [probeOver] using hf, by simpa [probeOver] using h⟩
  | cons c cs ih =>
    let s0 := (s.setCi c).setReady c false
    let e := exchange (byteOf c) .pingChannel [] (respLenOf s.cfg .pingChannel []) s0
    have hn : (c :: cs).length + k = cs.length + k + 1 := by simp only [List.length_cons]; omega
    rw [hn] at hw hf
    obtain ⟨hw1, hw2⟩ := head_of_take hw
    obtain ⟨hf1, hf2⟩ := head_of_take hf
    have hl : pong.length ≤ 255 := by rw [hp]; exact Nat.le_of_lt_succ (BitVec.isLt _)
    have hcn := List.nodup_cons.1 hnd
    have hcl := hin c (List.mem_cons_self ..)
    have et := (exchange_spec (byteOf c) .pingChannel [] (respLenOf s.cfg .pingChannel []) s0).1
    -- the answer of this ping, and the rest
    have ans : (e.1 = (if up c then .ok pong else .err .statusFailure (infoOf s.cfg.stFailure 0))) ∧
        cs.flatMap (pingAnswer s.cfg up pong) ++ tail <+: e.2.tr.rx ∧ e.2.tr.writeAns = s.tr.writeAns.tail ∧
        e.2.tr.flushAns = s.tr.flushAns.tail := by
      cases hu : up c with
      | true =>
        have h' : encodeResponse (byteOf c) s.cfg.stSuccess pong ++ (cs.flatMap (pingAnswer s.cfg up pong) ++ tail) <+:
            s0.tr.rx ++ s0.tr.takeArrival.1 := by
          simpa [List.flatMap_cons, pingAnswer, hu, s0] using h
        have := exchange_standing (s := s0) (ch := byteOf c) (cmd := .pingChannel) (pay := [])
          (n := respLenOf s.cfg .pingChannel []) hl hw1 hf1 h'
        exact ⟨by simpa using this.1.trans (validate_success hc.2.2.2.2.2 hp), this.2⟩
      | false =>
        have h' : encodeResponse (byteOf c) s.cfg.stFailure [] ++ (cs.flatMap (pingAnswer s.cfg up pong) ++ tail) <+:
            s0.tr.rx ++ s0.tr.takeArrival.1 := by
          simpa [List.flatMap_cons, pingAnswer, hu, s0] using h
        have := exchange_standing (s := s0) (ch := byteOf c) (cmd := .pingChannel) (pay := [])
          (n := respLenOf s.cfg .pingChannel []) (by simp) hw1 hf1 h'
        exact ⟨by simpa [byteOf, s0, e] using this.1.trans (validate_failure _ _ _ _), this.2⟩
    obtain ⟨a1, a2, a3, a4⟩ := ans
    -- the state the loop goes on from
    have go : ∀ (b : Bool) (u : State), u = (e.2.setReady c (up c)).logExchange sid op c .pingChannel e.1 →
        probeOver sid op (c :: cs) any s = probeOver sid op cs b u →
        (∀ x ∈ c :: cs, (probeOver sid op (c :: cs) any s).2.readyAt x = up x) ∧
          (probeOver sid op (c :: cs) any s).2.tr.writeAns.take k = List.replicate k true ∧
          (probeOver sid op (c :: cs) any s).2.tr.flushAns.take k = List.replicate k true ∧
          tail <+: (probeOver sid op (c :: cs) any s).2.tr.rx ++
            (probeOver sid op (c :: cs) any s).2.tr.takeArrival.1 := by
      intro b u hu heq
      have hcfg : u.cfg = s.cfg := by rw [hu]; exact et.cfg
      have hlen : u.ready.length = s.ready.length := by
        rw [hu]; simpa [s0] using et.readyLen
      have htr : u.tr = e.2.tr := by rw [hu]; rfl
      obtain ⟨i1, i2⟩ := ih b u (by rw [hcfg]; exact hc) hcn.2
        (fun x hx => by rw [hlen]; exact hin x (List.mem_cons_of_mem _ hx)) (by rw [hcfg]; exact hp)
        (by rw [htr, a3]; exact hw2) (by rw [htr, a4]; exact hf2)
        (by rw [hcfg, htr]; exact a2.trans (List.prefix_append _ _))
      have hother := (probeOver_spec sid op cs hcn.2 b u
        (fun x hx => by rw [hlen]; exact hin x (List.mem_cons_of_mem _ hx))).2.2.1 c hcn.1
      have huc : u.readyAt c = up c := by
        have : e.2.ready.length = s.ready.length := by simpa [s0] using et.readyLen
        rw [hu]
        simp [State.readyAt, List.getD_eq_getElem?_getD, this, hcl]
      rw [heq]
      refine ⟨fun x hx => ?_, i2⟩
      rcases List.mem_cons.1 hx with rfl | hx
      · exact hother.trans huc
      · exact i1 x hx
    have hself : e.2.setReady c false = e.2 := by
      have er : e.2.ready = s.ready.set c false := exchange_ready _ _ _ _ _
      have : e.2.ready.set c false = e.2.ready := by rw [er]; simp
      simp only [State.setReady, this]
    cases hu : up c with
    | true =>
      rw [hu] at a1
      refine go true _ rfl ?_
      have : (exchange (byteOf c) .pingChannel [] (respLenOf s.cfg .pingChannel []) ((s.setCi c).setReady c false)).1 =
          .ok pong := a1
      simp [probeOver, this, hu, e, s0]
    | false =>
      rw [hu] at a1
      refine go any _ rfl ?_
      have : (exchange (byteOf c) .pingChannel [] (respLenOf s.cfg .pingChannel []) ((s.setCi c).setReady c false)).1 =
          .err .statusFailure (infoOf s.cfg.stFailure 0) := a1
      rw [hu, hself]
      simp [probeOver, this, e, s0]

/-- `FindOn` on a channel whose flag byte and address stand in the stream finds the device and records the address
(R228). -/
theorem findOn_hit (sid : Nat) (op : HostOp) (c : Nat) (cmd : WireCmd) (reply : List Byte) (s : State) (hc : s.cfg.Wf)
    (h1 : respLenOf s.cfg cmd [] = 1) (hr : reply.length = s.cfg.respLen.getAddress.toNat)
    (hw : s.tr.writeAns.take 2 = [true, true]) (hf : s.tr.flushAns.take 2 = [true, true])
    (h : encodeResponse (byteOf c) s.cfg.stSuccess [s.cfg.flagByte] ++
      encodeResponse (byteOf c) s.cfg.stSuccess reply <+: s.tr.rx ++ s.tr.takeArrival.1) :
    (findOn sid op c cmd s).1 = true ∧ (findOn sid op c cmd s).2.lastAddr = fetchedAddr s.draws c reply ∧
      (findOn sid op c cmd s).2.log = s.log ∧ Sent s (findOn sid op c cmd s).2
        [wireFrame s.cfg (byteOf c) cmd [], wireFrame s.cfg (byteOf c) .getAddress []] := by
  obtain ⟨hw1, hw2⟩ := head_of_take (k := 1) hw
  obtain ⟨hf1, hf2⟩ := head_of_take (k := 1) hf
  have hl : reply.length ≤ 255 := by rw [hr]; exact Nat.le_of_lt_succ (BitVec.isLt _)
  obtain ⟨e1, e2, e3, e4⟩ := exchangeCh_standing (cmd := cmd) (pay := []) (n := respLenOf s.cfg cmd []) hc
    (by simp [h1]) (by simp) hw1 hf1 h
  obtain ⟨rt, rs⟩ := exchangeCh_spec c cmd [] (respLenOf s.cfg cmd []) s
  generalize hu : (exchangeCh c cmd [] (respLenOf s.cfg cmd []) s).2 = u at *
  obtain ⟨hw3, -⟩ := head_of_take (k := 0) hw2
  obtain ⟨hf3, -⟩ := head_of_take (k := 0) hf2
  obtain ⟨g1, -⟩ := exchangeCh_rx (s := u) (c := c) (cmd := .getAddress) (pay := []) (tail := [])
    (n := respLenOf u.cfg .getAddress []) (by rw [rt.cfg]; exact hc) (by rw [rt.cfg]; exact hr) hl (by rw [e3]; exact hw3)
    (by rw [e4]; exact hf3) (by simpa [rt.cfg] using e2)
  obtain ⟨gt, gs⟩ := exchangeCh_spec c .getAddress [] (respLenOf u.cfg .getAddress []) u
  have hv : findOn sid op c cmd s =
      (true, (exchangeCh c .getAddress [] (respLenOf u.cfg .getAddress []) u).2.setAddr (fetchedAddr u.draws c reply)) := by
    simp only [findOn, e1, soleByte_one, flagTrue, beq_self_eq_true, ite_true, fetchAddr, hu, g1]
  rw [hv, rt.draws]
  refine ⟨rfl, rfl, gt.log.trans rt.log, ?_⟩
  have := rs.trans gs
  rw [rt.cfg] at this ⊢
  exact this.of_tr rfl rfl

/-- A scan passes by the channels that are not ready (R222, R161). -/
theorem scanOver_skip (sid : Nat) (op : HostOp) (l cs : List Nat) (s : State) (h : ∀ x ∈ l, s.readyAt x = false) :
    ∃ u, scanOver sid op (l ++ cs) s = scanOver sid op cs u ∧ Kept s u ∧ u.tr = s.tr ∧ u.ready = s.ready ∧
      u.log = s.log := by
  induction l generalizing s with
  | nil => exact ⟨s, rfl, Kept.refl s, rfl, rfl, rfl⟩
  | cons c l ih =>
    obtain ⟨u, hu, k, h1, h2, h3⟩ := ih (((s.setSState .searching).setCursor c).setCi c)
      (fun x hx => h x (List.mem_cons_of_mem _ hx))
    have hr : s.readyAt c = false := h c (List.mem_cons_self ..)
    refine ⟨u, ?_, (((Kept.setSState s _).trans (Kept.setCursor _ _)).trans (Kept.setCi _ _)).trans k, h1, h2, h3⟩
    rw [← hu]
    simp [scanOver, hr]

/-- isPresent passes by the channels that are not ready (R198, R161). -/
theorem presentOver_skip (sid : Nat) (addr : DevAddr) (l cs : List Nat) (s : State)
    (h : ∀ x ∈ l, s.readyAt x = false) :
    ∃ u, presentOver sid addr (l ++ cs) s = presentOver sid addr cs u ∧ Kept s u ∧ SameSearch s u ∧ u.tr = s.tr ∧
      u.ready = s.ready ∧ u.log = s.log := by
  induction l generalizing s with
  | nil => exact ⟨s, rfl, Kept.refl s, ⟨rfl, rfl, rfl, rfl⟩, rfl, rfl, rfl⟩
  | cons c l ih =>
    obtain ⟨u, hu, k, h0, h1, h2, h3⟩ := ih (s.setCi c) (fun x hx => h x (List.mem_cons_of_mem _ hx))
    have hr : s.readyAt c = false := h c (List.mem_cons_self ..)
    refine ⟨u, ?_, (Kept.setCi s c).trans k, h0, h1, h2, h3⟩
    rw [← hu]
    simp [presentOver, hr]

/-- A loop over channels from `a` on, taken apart at the channel `b`. -/
theorem channelsFrom_split (c : Config) {a b : Nat} (h : a ≤ b) (hb : b < c.maxChannels) :
    channelsFrom c a = List.range' a (b - a) ++ b :: channelsFrom c (b + 1) := by
  have e : c.maxChannels - a = (b - a) + ((c.maxChannels - (b + 1)) + 1) := by omega
  rw [channelsFrom, e, ← List.range'_append_1, List.range'_succ, show a + (b - a) = b by omega]
  rfl

/-- The exchanges leave the configuration alone. -/
theorem afterAsking_cfg (asked : Nat → Bool) (cmd : WireCmd) (pay : List Byte) (n : Nat) (s : State) (c : Nat) :
    (afterAsking asked cmd pay n s c).cfg = s.cfg := by
  induction c with
  | zero => rfl
  | succ c ih =>
    simp only [afterAsking]
    split
    · exact ((exchange_spec _ _ _ _ _).1.cfg).trans ih
    · exact ih

/-- What a probe of the channels from `a` on finds is what the pings before each of them left to be answered (R164). -/
theorem probeOver_pings (sid : Nat) (op : HostOp) (s : State) (k a : Nat) (any : Bool) (u : State)
    (hc : u.cfg = s.cfg) (ht : u.tr = (afterPings s a).tr) (hl : a + k ≤ u.ready.length) :
    (∀ x, a ≤ x → x < a + k → ((probeOver sid op (List.range' a k) any u).2.readyAt x = true ↔
      ∃ p, (exchange (byteOf x) .pingChannel [] s.cfg.respLen.pingChannel.toNat (afterPings s x)).1 = .ok p)) ∧
    (probeOver sid op (List.range' a k) any u).2.tr = (afterPings s (a + k)).tr := by
  induction k generalizing a any u with
  | zero => exact ⟨fun x h1 h2 => by omega, by simpa [probeOver] using ht⟩
  | succ k ih =>
    let u0 := (u.setCi a).setReady a false
    obtain ⟨e1, e2⟩ := exchange_congr (byteOf a) .pingChannel [] s.cfg.respLen.pingChannel.toNat (s := afterPings s a)
      (s' := u0) (hc.trans (afterAsking_cfg _ _ _ _ s a).symm) ht
    have et := (exchange_spec (byteOf a) .pingChannel [] s.cfg.respLen.pingChannel.toNat u0).1
    have er : (exchange (byteOf a) .pingChannel [] s.cfg.respLen.pingChannel.toNat u0).2.ready = u.ready.set a false :=
      exchange_ready _ _ _ _ _
    have hlen : respLenOf u.cfg .pingChannel [] = s.cfg.respLen.pingChannel.toNat := by rw [hc]; rfl
    -- the loop goes on from `v`, in which the flag of `a` is `b`
    have go : ∀ (b any' : Bool) (v : State),
        probeOver sid op (a :: List.range' (a + 1) k) any u = probeOver sid op (List.range' (a + 1) k) any' v →
        v.cfg = u0.cfg → v.tr = (exchange (byteOf a) .pingChannel [] s.cfg.respLen.pingChannel.toNat u0).2.tr →
        v.ready.length = u.ready.length → v.readyAt a = b →
        (b = true ↔ ∃ p, (exchange (byteOf a) .pingChannel [] s.cfg.respLen.pingChannel.toNat (afterPings s a)).1 =
          .ok p) →
        (∀ x, a ≤ x → x < a + (k + 1) → ((probeOver sid op (List.range' a (k + 1)) any u).2.readyAt x = true ↔
          ∃ p, (exchange (byteOf x) .pingChannel [] s.cfg.respLen.pingChannel.toNat (afterPings s x)).1 = .ok p)) ∧
        (probeOver sid op (List.range' a (k + 1)) any u).2.tr = (afterPings s (a + (k + 1))).tr := by
      intro b any' v heq v1 v2 v3 v4 hb
      obtain ⟨i1, i2⟩ := ih (a + 1) any' v (v1.trans hc) (v2.trans e2) (by omega)
      have hother := (probeOver_spec sid op (List.range' (a + 1) k) (List.nodup_range' ..) any' v
        (fun x hx => by simp only [List.mem_range'_1] at hx; omega)).2.2.1 a (by simp)
      rw [List.range'_succ, heq, show a + (k + 1) = a + 1 + k by omega]
      refine ⟨fun x h1 h2 => ?_, i2⟩
      by_cases hx : x = a
      · subst hx; rw [hother, v4]; exact hb
      · exact i1 x (by omega) h2
    let e := exchange (byteOf a) .pingChannel [] s.cfg.respLen.pingChannel.toNat u0
    have hlt : a < u.ready.length := by omega
    have hset : (e.2.setReady a true).readyAt a = true := by
      simp [State.readyAt, e, er, List.getD_eq_getElem?_getD, hlt]
    have hclr : e.2.readyAt a = false := by
      simp [State.readyAt, e, er, List.getD_eq_getElem?_getD, hlt]
    rcases exchange_cases (byteOf a) .pingChannel [] s.cfg.respLen.pingChannel.toNat u0 with ⟨p, hp, -⟩ | ⟨ca, inf, hp, -⟩
    · refine go true true ((e.2.setReady a true).logExchange sid op a .pingChannel e.1) ?_ et.cfg rfl (by simp [e, er])
        (by simpa using hset) (by simp [← e1, hp])
      simp only [probeOver, hlen, e, u0]
      rw [show (exchange (byteOf a) .pingChannel [] s.cfg.respLen.pingChannel.toNat
        ((u.setCi a).setReady a false)).1 = _ from hp]
    · refine go false any (e.2.logExchange sid op a .pingChannel e.1) ?_ et.cfg rfl (by simp [e, er])
        (by simpa using hclr) (by simp [← e1, hp])
      simp only [probeOver, hlen, e, u0]
      rw [show (exchange (byteOf a) .pingChannel [] s.cfg.respLen.pingChannel.toNat
        ((u.setCi a).setReady a false)).1 = _ from hp]

/-- What a device with a one-byte flag answers on channel `x`. -/
abbrev flagAnswer (c : Config) (flag : Nat → Byte) (x : Nat) : List Byte :=
  encodeResponse (byteOf x) c.stSuccess [flag x]

/-- The environment of a loop whose ready channels in `l` answer with `flag`, with `tail` behind the answers, and where
`k` further requests go out. -/
structure FlagsStand (s : State) (flag : Nat → Byte) (l : List Nat) (tail : List Byte) (k : Nat) : Prop where
  write : s.tr.writeAns.take ((l.filter s.readyAt).length + k) = List.replicate ((l.filter s.readyAt).length + k) true
  flush : s.tr.flushAns.take ((l.filter s.readyAt).length + k) = List.replicate ((l.filter s.readyAt).length + k) true
  stand : (l.filter s.readyAt).flatMap (flagAnswer s.cfg flag) ++ tail <+: s.tr.rx ++ s.tr.takeArrival.1

/-- The environment is that of the configuration, the ready table and the transport. -/
theorem FlagsStand.congr {s s' : State} {flag : Nat → Byte} {l : List Nat} {tail : List Byte} {k : Nat}
    (h : FlagsStand s flag l tail k) (hc : s'.cfg = s.cfg) (hr : s'.ready = s.ready) (ht : s'.tr = s.tr) :
    FlagsStand s' flag l tail k := by
  have e : s'.readyAt = s.readyAt := by funext x; simp [State.readyAt, hr]
  exact ⟨by rw [e, ht]; exact h.write, by rw [e, ht]; exact h.flush, by rw [e, ht, hc]; exact h.stand⟩

/-- A channel that is not ready takes no answer (R161). -/
theorem FlagsStand.skip {s : State} {flag : Nat → Byte} {c : Nat} {l : List Nat} {tail : List Byte} {k : Nat}
    (h : FlagsStand s flag (c :: l) tail k) (hr : s.readyAt c = false) : FlagsStand s flag l tail k := by
  have e : (c :: l).filter s.readyAt = l.filter s.readyAt := List.filter_cons_of_neg (by simp [hr])
  obtain ⟨h1, h2, h3⟩ := h
  rw [e] at h1 h2 h3
  exact ⟨h1, h2, h3⟩

/-- The first ready channel's exchange gives its flag, and the rest of the answers stand for the rest (R121). -/
theorem FlagsStand.ask {s : State} {flag : Nat → Byte} {c : Nat} {l : List Nat} {tail : List Byte} {k n : Nat}
    (h : FlagsStand s flag (c :: l) tail k) (hc : s.cfg.Wf) (hr : s.readyAt c = true) (hn : n = 1) (cmd : WireCmd)
    (pay : List Byte) :
    (exchangeCh c cmd pay n s).1 = .ok [flag c] ∧ FlagsStand (exchangeCh c cmd pay n s).2 flag l tail k := by
  obtain ⟨h1, h2, h3⟩ := h
  rw [List.filter_cons_of_pos hr, List.length_cons,
    show (l.filter s.readyAt).length + 1 + k = (l.filter s.readyAt).length + k + 1 by omega] at h1 h2
  obtain ⟨hw1, hw2⟩ := head_of_take h1
  obtain ⟨hf1, hf2⟩ := head_of_take h2
  rw [List.filter_cons_of_pos hr, List.flatMap_cons, List.append_assoc] at h3
  obtain ⟨e1, e2, e3, e4⟩ := exchangeCh_standing (cmd := cmd) (pay := pay) (n := n) hc (by simp [hn]) (by simp) hw1 hf1 h3
  have er := exchangeCh_ok_ready e1
  have ec := (exchangeCh_spec c cmd pay n s).1.cfg
  have e : (exchangeCh c cmd pay n s).2.readyAt = s.readyAt := by funext x; simp [State.readyAt, er]
  exact ⟨e1, by rw [e, e3]; exact hw2, by rw [e, e4]; exact hf2, by
    rw [e, ec]; exact e2.trans (List.prefix_append _ _)⟩

/-- `FindOn` on a channel that answers another flag leaves it at that: nothing is logged and nothing recorded (R228). -/
theorem findOn_pass (sid : Nat) (op : HostOp) (c : Nat) (cmd : WireCmd) (f : Byte) (s : State)
    (h : (exchangeCh c cmd [] (respLenOf s.cfg cmd []) s).1 = .ok [f]) (hf : f ≠ s.cfg.flagByte) :
    findOn sid op c cmd s = (false, (exchangeCh c cmd [] (respLenOf s.cfg cmd []) s).2) := by
  simp only [findOn, h, soleByte_one, flagTrue, beq_iff_eq, hf, ite_false]

/-- A scan passes by the channels that are not ready, and asks and leaves those that answer another flag (R222, R161). -/
theorem scanOver_pass (sid : Nat) (op : HostOp) (flag : Nat → Byte) (tail : List Byte) (k : Nat) (l cs : List Nat)
    (s : State) (hc : s.cfg.Wf) (h1 : s.cfg.respLen.findFirst = 1)
    (hfl : ∀ x ∈ l.filter s.readyAt, flag x ≠ s.cfg.flagByte) (h : FlagsStand s flag l tail k) :
    ∃ u, scanOver sid op (l ++ cs) s = scanOver sid op cs u ∧ Kept s u ∧ u.ready = s.ready ∧ u.log = s.log ∧
      u.lastAddr = s.lastAddr ∧ u.addrValid = s.addrValid ∧ FlagsStand u flag [] tail k ∧
      Sent s u ((l.filter s.readyAt).map (fun c => wireFrame s.cfg (byteOf c) .findFirst [])) := by
  induction l generalizing s with
  | nil => exact ⟨s, rfl, Kept.refl s, rfl, rfl, rfl, rfl, h, Sent.none rfl⟩
  | cons c l ih =>
    have k0 : Kept s (((s.setSState .searching).setCursor c).setCi c) :=
      ((Kept.setSState s _).trans (Kept.setCursor _ _)).trans (Kept.setCi _ _)
    have h0 : FlagsStand (((s.setSState .searching).setCursor c).setCi c) flag (c :: l) tail k := h.congr rfl rfl rfl
    cases hr : s.readyAt c with
    | false =>
      rw [List.filter_cons_of_neg (by simp [hr])] at hfl ⊢
      obtain ⟨u, e, ku, r, lg, la, av, fs, sn⟩ := ih (((s.setSState .searching).setCursor c).setCi c) hc h1 hfl
        (h0.skip hr)
      refine ⟨u, ?_, k0.trans ku, r, lg, la, av, fs, sn.of_tr rfl rfl⟩
      rw [← e]
      simp [scanOver, hr]
    | true =>
      rw [List.filter_cons_of_pos hr] at hfl ⊢
      obtain ⟨e1, e2⟩ := h0.ask (n := respLenOf s.cfg .findFirst []) hc hr (by simp [respLenOf, h1]) .findFirst []
      obtain ⟨et, es⟩ := exchangeCh_spec c .findFirst [] (respLenOf s.cfg .findFirst [])
        (((s.setSState .searching).setCursor c).setCi c)
      have er := exchangeCh_ok_ready e1
      generalize hv : (exchangeCh c .findFirst [] (respLenOf s.cfg .findFirst [])
        (((s.setSState .searching).setCursor c).setCi c)).2 = v at *
      have hp := findOn_pass sid op c .findFirst (flag c) (((s.setSState .searching).setCursor c).setCi c) e1
        (hfl c (List.mem_cons_self ..))
      have hra : v.readyAt = s.readyAt := by funext x; simp [State.readyAt, er]
      have hcv : v.cfg = s.cfg := et.cfg
      obtain ⟨u, e, ku, r, lg, la, av, fs, sn⟩ := ih v (by rw [hcv]; exact hc) (by rw [hcv]; exact h1)
        (by rw [hcv, hra]; exact fun x hx => hfl x (List.mem_cons_of_mem _ hx)) e2
      rw [hcv, hra] at sn
      refine ⟨u, ?_, (k0.trans et.kept).trans ku, r.trans er, lg.trans et.log, la.trans et.lastAddr,
        av.trans et.addrValid, fs, ?_⟩
      · rw [← e, ← hv]
        have : findOn sid op c .findFirst (((s.setSState .searching).setCursor c).setCi c) = (false, v) := by
          rw [hp, ← hv]; rfl
        simp only [List.cons_append, scanOver]
        rw [this]
        simp [hr, hv]
      · simpa using (es.of_tr (s' := s) (t' := v) rfl rfl).trans sn

/-- isPresent passes by the channels that are not ready, and asks and leaves those that answer another flag (R198, R161). -/
theorem presentOver_pass (sid : Nat) (addr : DevAddr) (flag : Nat → Byte) (tail : List Byte) (k : Nat) (l cs : List Nat)
    (s : State) (hc : s.cfg.Wf) (h1 : s.cfg.respLen.searchRom = 1)
    (hfl : ∀ x ∈ l.filter s.readyAt, flag x ≠ s.cfg.flagByte) (h : FlagsStand s flag l tail k) :
    ∃ u, presentOver sid addr (l ++ cs) s = presentOver sid addr cs u ∧ Kept s u ∧ SameSearch s u ∧
      u.ready = s.ready ∧ u.log = s.log ∧ FlagsStand u flag [] tail k ∧
      Sent s u ((l.filter s.readyAt).map (fun c => wireFrame s.cfg (byteOf c) .searchRom (addrBytes addr))) := by
  induction l generalizing s with
  | nil => exact ⟨s, rfl, Kept.refl s, ⟨rfl, rfl, rfl, rfl⟩, rfl, rfl, h, Sent.none rfl⟩
  | cons c l ih =>
    have h0 : FlagsStand (s.setCi c) flag (c :: l) tail k := h.congr rfl rfl rfl
    cases hr : s.readyAt c with
    | false =>
      rw [List.filter_cons_of_neg (by simp [hr])] at hfl ⊢
      obtain ⟨u, e, ku, ss, r, lg, fs, sn⟩ := ih (s.setCi c) hc h1 hfl (h0.skip hr)
      refine ⟨u, ?_, (Kept.setCi s c).trans ku, ss, r, lg, fs, sn.of_tr rfl rfl⟩
      rw [← e]
      simp [presentOver, hr]
    | true =>
      rw [List.filter_cons_of_pos hr] at hfl ⊢
      obtain ⟨e1, e2⟩ := h0.ask (n := respLenOf s.cfg .searchRom (addrBytes addr)) hc hr (by simp [respLenOf, h1])
        .searchRom (addrBytes addr)
      obtain ⟨et, es⟩ := exchangeCh_spec c .searchRom (addrBytes addr) (respLenOf s.cfg .searchRom (addrBytes addr))
        (s.setCi c)
      have er := exchangeCh_ok_ready e1
      generalize hv : (exchangeCh c .searchRom (addrBytes addr) (respLenOf s.cfg .searchRom (addrBytes addr))
        (s.setCi c)).2 = v at *
      have hra : v.readyAt = s.readyAt := by funext x; simp [State.readyAt, er]
      have hcv : v.cfg = s.cfg := et.cfg
      obtain ⟨u, e, ku, ss, r, lg, fs, sn⟩ := ih v (by rw [hcv]; exact hc) (by rw [hcv]; exact h1)
        (by rw [hcv, hra]; exact fun x hx => hfl x (List.mem_cons_of_mem _ hx)) e2
      rw [hcv, hra] at sn
      refine ⟨u, ?_, ((Kept.setCi s c).trans et.kept).trans ku, ⟨ss.1.trans et.cursor, ss.2.1.trans et.lastAddr,
        ss.2.2.1.trans et.addrValid, ss.2.2.2.trans et.sstate⟩, r.trans er, lg.trans et.log, fs, ?_⟩
      · rw [← e]
        simp only [List.cons_append, presentOver, setCi_readyAt, hr, ite_true]
        rw [e1, hv]
        simp [flagTrue, hfl c (List.mem_cons_self ..)]
      · simpa using (es.of_tr (s' := s) (t' := v) rfl rfl).trans sn

/-! The loops, told by what the exchanges give. -/

/-- The whole probe leaves what `afterProbe` says (R164). -/
theorem probe_afterProbe (sid : Nat) (op : HostOp) (s s' : State) (hc : s'.cfg = s.cfg) (ht : s'.tr = s.tr)
    (hl : s'.ready.length = s.cfg.maxChannels) :
    (probe sid op s').2.cfg = (afterProbe s).cfg ∧ (probe sid op s').2.tr = (afterProbe s).tr ∧
      (probe sid op s').2.ready = (afterProbe s).ready := by
  have hch : channelsFrom s'.cfg 0 = List.range' 0 s.cfg.maxChannels := by simp [channelsFrom, hc]
  obtain ⟨p1, p2⟩ := probeOver_pings sid op s s.cfg.maxChannels 0 false (invalidateSearch s') hc ht
    (by show 0 + _ ≤ s'.ready.length; omega)
  have k := (probeOver_spec sid op (List.range' 0 s.cfg.maxChannels) (List.nodup_range' ..) false (invalidateSearch s')
    (fun c h => by simp only [List.mem_range'_1] at h; show c < s'.ready.length; omega)).1
  simp only [probe, hch]
  refine ⟨k.cfg.trans (hc.trans (afterAsking_cfg ..).symm), p2.trans (by simp [afterProbe]), ?_⟩
  have hlen : (probeOver sid op (List.range' 0 s.cfg.maxChannels) false (invalidateSearch s')).2.ready.length =
      s.cfg.maxChannels := k.readyLen.trans hl
  refine List.ext_getElem (by simp [hlen, afterProbe]) (fun x h1 h2 => ?_)
  have hx := p1 x (Nat.zero_le _) (by omega)
  simp only [State.readyAt, List.getD_eq_getElem?_getD, h1, List.getElem?_eq_getElem, Option.getD_some] at hx
  rw [Bool.eq_iff_iff, hx]
  rcases exchange_cases (byteOf x) .pingChannel [] s.cfg.respLen.pingChannel.toNat (afterPings s x)
    with ⟨p, hp, -⟩ | ⟨ca, inf, hp, -⟩ <;> simp [afterProbe, hp, logOutcome]

/-- `ExchangeCh` reads nothing of the state but the configuration, the transport and the ready table (R121). -/
theorem exchangeCh_congr (c : Nat) (cmd : WireCmd) (pay : List Byte) (n : Nat) {s s' : State} (hc : s'.cfg = s.cfg)
    (ht : s'.tr = s.tr) (hr : s'.ready = s.ready) :
    (exchangeCh c cmd pay n s').1 = (exchangeCh c cmd pay n s).1 ∧
      (exchangeCh c cmd pay n s').2.tr = (exchangeCh c cmd pay n s).2.tr ∧
      (exchangeCh c cmd pay n s').2.ready = (exchangeCh c cmd pay n s).2.ready := by
  obtain ⟨e1, e2⟩ := exchange_congr (byteOf c) cmd pay n hc ht
  have c1 := (exchange_spec (byteOf c) cmd pay n s').1.cfg
  have c2 := (exchange_spec (byteOf c) cmd pay n s).1.cfg
  have r1 := exchange_ready (byteOf c) cmd pay n s'
  have r2 := exchange_ready (byteOf c) cmd pay n s
  refine ⟨e1, ?_⟩
  simp only [exchangeCh, e1]
  unfold downgradeOn
  split
  · simp only [c1, c2, hc]
    split <;> simp [e2, r1, r2, hr]
  · exact ⟨e2, by rw [r1, r2, hr]⟩
  · exact ⟨e2, by rw [r1, r2, hr]⟩

/-- The ready flags after `ExchangeCh` (R121): the channel's own is cleared on a communication error with the downgrade on,
and nothing else changes. -/
theorem exchangeCh_readyAt (c : Nat) (cmd : WireCmd) (pay : List Byte) (n : Nat) (s : State) (x : Nat) :
    (exchangeCh c cmd pay n s).2.readyAt x = true ↔ (s.readyAt x = true ∧ ¬(x = c ∧ s.cfg.downgrade = true ∧
      ∃ cause info, (exchange (byteOf c) cmd pay n s).1 = .err cause info ∧ kindOf cause = .communication)) := by
  have hcf := (exchange_spec (byteOf c) cmd pay n s).1.cfg
  have hrd := exchange_ready (byteOf c) cmd pay n s
  have hself : (s.ready.set c false).getD c false = false := by
    simp only [List.getD_eq_getElem?_getD, List.getElem?_set]
    by_cases h : c < s.ready.length <;> simp [h]
  have hother : x ≠ c → (s.ready.set c false).getD x false = s.ready.getD x false := fun h => by
    simp [List.getD_eq_getElem?_getD, List.getElem?_set_ne (Ne.symm h)]
  rcases exchange_cases (byteOf c) cmd pay n s with ⟨p, hp, -⟩ | ⟨cause, info, hp, -⟩
  · simp [exchangeCh, hp, downgradeOn, State.readyAt, hrd]
  · have hk : downgrades cause = decide (kindOf cause = .communication) := by cases cause <;> rfl
    simp only [exchangeCh, hp, downgradeOn, hcf, hk]
    by_cases hd : s.cfg.downgrade = true <;> by_cases hc : kindOf cause = .communication <;> by_cases hx : x = c <;>
      simp_all [State.readyAt]

/-- The record a broadcast logs for a slot (R163, R172): what the slot's own exchange gave, or that it was skipped. -/
abbrev slotRecord (s : State) (sid : Nat) (op : HostOp) (cmd : WireCmd) (pay : List Byte) (n c : Nat) : LogRec :=
  ⟨sid, op, c, cmd, if s.readyAt c then logOutcome (answerOf s.readyAt cmd pay n s c) else .skipped⟩

/-- What a broadcast over the channels from `a` on leaves, told by what the exchanges before each of them left to be
answered (R163, R121). -/
theorem broadcastOver_asked (sid : Nat) (op : HostOp) (cmd : WireCmd) (pay : List Byte) (n : Nat) (s : State)
    (hn : respLenOf s.cfg cmd pay = n) (k a : Nat) (u : State) (hc : u.cfg = s.cfg)
    (ht : u.tr = (afterAsking s.readyAt cmd pay n s a).tr) (hr : ∀ x, a ≤ x → u.readyAt x = s.readyAt x) :
    (broadcastOver sid op cmd pay (List.range' a k) u).log =
        u.log ++ (List.range' a k).map (slotRecord s sid op cmd pay n) ∧
      (broadcastOver sid op cmd pay (List.range' a k) u).tr = (afterAsking s.readyAt cmd pay n s (a + k)).tr ∧
      (∀ x, (x < a ∨ a + k ≤ x) → (broadcastOver sid op cmd pay (List.range' a k) u).readyAt x = u.readyAt x) ∧
      ∀ x, a ≤ x → x < a + k → ((broadcastOver sid op cmd pay (List.range' a k) u).readyAt x = true ↔
        (s.readyAt x = true ∧ ¬(s.cfg.downgrade = true ∧
          ∃ cause info, answerOf s.readyAt cmd pay n s x = .err cause info ∧ kindOf cause = .communication))) := by
  induction k generalizing a u with
  | zero => exact ⟨by simp [broadcastOver], by simpa [broadcastOver] using ht, fun _ _ => rfl, fun x h1 h2 => by omega⟩
  | succ k ih =>
    -- the loop goes on from `v`
    have go : ∀ v : State, broadcastOver sid op cmd pay (a :: List.range' (a + 1) k) u =
          broadcastOver sid op cmd pay (List.range' (a + 1) k) v → v.cfg = s.cfg →
        v.tr = (afterAsking s.readyAt cmd pay n s (a + 1)).tr → v.log = u.log ++ [slotRecord s sid op cmd pay n a] →
        (∀ x, x ≠ a → v.readyAt x = u.readyAt x) → (v.readyAt a = true ↔ (s.readyAt a = true ∧
          ¬(s.cfg.downgrade = true ∧ ∃ cause info, answerOf s.readyAt cmd pay n s a = .err cause info ∧
            kindOf cause = .communication))) →
        (broadcastOver sid op cmd pay (List.range' a (k + 1)) u).log =
            u.log ++ (List.range' a (k + 1)).map (slotRecord s sid op cmd pay n) ∧
          (broadcastOver sid op cmd pay (List.range' a (k + 1)) u).tr =
            (afterAsking s.readyAt cmd pay n s (a + (k + 1))).tr ∧
          (∀ x, (x < a ∨ a + (k + 1) ≤ x) →
            (broadcastOver sid op cmd pay (List.range' a (k + 1)) u).readyAt x = u.readyAt x) ∧
          ∀ x, a ≤ x → x < a + (k + 1) → ((broadcastOver sid op cmd pay (List.range' a (k + 1)) u).readyAt x = true ↔
            (s.readyAt x = true ∧ ¬(s.cfg.downgrade = true ∧
              ∃ cause info, answerOf s.readyAt cmd pay n s x = .err cause info ∧ kindOf cause = .communication))) := by
      intro v heq v1 v2 v3 v4 v5
      obtain ⟨i1, i2, i3, i4⟩ := ih (a + 1) v v1 v2 (fun x hx => (v4 x (by omega)).trans (hr x (by omega)))
      rw [List.range'_succ, heq, show a + (k + 1) = a + 1 + k by omega]
      refine ⟨by rw [i1, v3]; simp, i2, fun x hx => (i3 x (by omega)).trans (v4 x (by omega)), fun x h1 h2 => ?_⟩
      by_cases hx : x = a
      · subst hx; rw [i3 x (by omega)]; exact v5
      · exact i4 x (by omega) h2
    have hra := hr a (Nat.le_refl a)
    cases hb : s.readyAt a with
    | false =>
      refine go ((u.setCi a).logExchange sid op a cmd .skipped) (by simp [broadcastOver, hra, hb]) hc
        (by simpa [afterAsking, hb] using ht) ?_ (fun x _ => rfl) (by simp [hra, hb])
      simp [State.logExchange, State.addLog, slotRecord, hb, logOutcome]
    | true =>
      obtain ⟨e1, e2⟩ := exchange_congr (byteOf a) cmd pay n (s := afterAsking s.readyAt cmd pay n s a)
        (s' := u.setCi a) (hc.trans (afterAsking_cfg ..).symm) ht
      have et := (exchangeCh_spec a cmd pay n (u.setCi a)).1
      have etr : (exchangeCh a cmd pay n (u.setCi a)).2.tr = (exchange (byteOf a) cmd pay n (u.setCi a)).2.tr := by
        simp only [exchangeCh]
        unfold downgradeOn
        split
        · split <;> rfl
        · rfl
        · rfl
      have hl : respLenOf u.cfg cmd pay = n := by rw [hc]; exact hn
      refine go ((exchangeCh a cmd pay n (u.setCi a)).2.logExchange sid op a cmd (exchangeCh a cmd pay n (u.setCi a)).1)
        (by simp [broadcastOver, hra, hb, hl]) (et.cfg.trans hc) ?_ ?_ ?_ ?_
      · simpa [afterAsking, hb] using etr.trans e2
      · have := et.log
        simp only [setCi_log] at this
        simp only [State.logExchange, State.addLog, this, slotRecord, hb, ite_true, answerOf, ← e1]
        rfl
      · intro x hx
        simpa using exchangeCh_other a x cmd pay n (u.setCi a) hx
      · have := exchangeCh_readyAt a cmd pay n (u.setCi a) a
        rw [e1] at this
        simpa [hra, hb, hc] using this

/-- `FindOn` where the search gets nothing, told by the exchanges from a state with the same configuration, transport and
ready table (R228). -/
theorem findOn_missed {s s' u : State} {sid : Nat} {op : HostOp} {c : Nat} {cmd : WireCmd} {sent : List (List Byte)}
    {recs : List LogRec} (hl : ∀ g : Config, respLenOf g cmd [] = (g.respLen.get cmd).toNat) (hc : s'.cfg = s.cfg)
    (ht : s'.tr = s.tr) (hr : s'.ready = s.ready) (h : FindMissed s u sid op c cmd sent recs) :
    ∃ v, findOn sid op c cmd s' = (false, v) ∧ v.tr = u.tr ∧ v.ready = u.ready ∧ v.log = s'.log ++ recs ∧
      u.cfg = s.cfg ∧ Sent s' v sent ∧ ∀ x, x ≠ c → v.readyAt x = s'.readyAt x := by
  have hn : respLenOf s'.cfg cmd [] = (s.cfg.respLen.get cmd).toNat := by rw [hl, hc]
  obtain ⟨g1, g2, g3⟩ := exchangeCh_congr c cmd [] (s.cfg.respLen.get cmd).toNat hc ht hr
  obtain ⟨et, es⟩ := exchangeCh_spec c cmd [] (s.cfg.respLen.get cmd).toNat s'
  have ec := (exchangeCh_spec c cmd [] (s.cfg.respLen.get cmd).toNat s).1.cfg
  have eo := fun x hx => exchangeCh_other c x cmd [] (s.cfg.respLen.get cmd).toNat s' hx
  have hw : [wireFrame s'.cfg (byteOf c) cmd []] = [[s.cfg.marker, byteOf c, s.cfg.opc.get cmd, 0]] := by
    rw [hc]; rfl
  rw [hw] at es
  generalize hq : exchangeCh c cmd [] (s.cfg.respLen.get cmd).toNat s' = q at *
  obtain ⟨q1, q2⟩ := q
  rcases h with ⟨f, hx, hf, rfl, rfl⟩ | ⟨cause, info, hx, rfl, rfl⟩ | ⟨w, cause, info, hx, hx2, rfl, rfl⟩
  · rw [hx] at g1 g2 g3 ec
    refine ⟨q2, ?_, g2, g3, by simpa using et.log, ec, es, eo⟩
    have := findOn_pass sid op c cmd f s' (by rw [hn, hq]; exact g1) (by rw [hc]; exact hf)
    rw [this, hn, hq]
  · rw [hx] at g1 g2 g3 ec
    refine ⟨q2.logExchange sid op c cmd q1, ?_, g2, g3, ?_, ec, es.of_tr rfl rfl, eo⟩
    · simp only at g1
      simp only [findOn, hn, hq, g1]
    · simp only at g1
      have := et.log
      simp only at this
      simp [State.logExchange, State.addLog, this, g1, logOutcome]
  · rw [hx] at g1 g2 g3 ec
    simp only at g1 g2 g3 ec
    have hcq : q2.cfg = s'.cfg := et.cfg
    obtain ⟨k1, k2, k3⟩ := exchangeCh_congr c .getAddress [] s.cfg.respLen.getAddress.toNat
      (hcq.trans (hc.trans ec.symm)) g2 g3
    obtain ⟨ft, fs⟩ := exchangeCh_spec c .getAddress [] s.cfg.respLen.getAddress.toNat q2
    have fc := (exchangeCh_spec c .getAddress [] s.cfg.respLen.getAddress.toNat w).1.cfg
    have fo := fun x hx => exchangeCh_other c x .getAddress [] s.cfg.respLen.getAddress.toNat q2 hx
    have hn2 : respLenOf q2.cfg .getAddress [] = s.cfg.respLen.getAddress.toNat := by rw [hcq, hc]; rfl
    have hw2 : [wireFrame q2.cfg (byteOf c) .getAddress []] = [[s.cfg.marker, byteOf c, s.cfg.opc.getAddress, 0]] := by
      rw [hcq, hc]; rfl
    rw [hw2] at fs
    generalize hp : exchangeCh c .getAddress [] s.cfg.respLen.getAddress.toNat q2 = p at *
    obtain ⟨p1, p2⟩ := p
    rw [hx2] at k1 k2 k3 fc
    simp only at k1 k2 k3 fc
    refine ⟨p2.logExchange sid op c .getAddress p1, ?_, k2, k3, ?_, fc.trans ec, (es.trans fs).of_tr rfl rfl,
      fun x hx => (fo x hx).trans (eo x hx)⟩
    · have hflag : flagTrue s'.cfg s.cfg.flagByte = true := by simp [flagTrue, hc]
      simp only [findOn, hn, hq, g1, soleByte_one, hflag, ite_true, fetchAddr, hn2, hp, k1]
    · have h1 := et.log
      have h2 := ft.log
      simp only at h1 h2
      simp [State.logExchange, State.addLog, h2, h1, k1, logOutcome]

/-- `FindOn` where the search gets an address, told in the same way (R228, R23). -/
theorem findOn_found {s s' u : State} {sid : Nat} {op : HostOp} {c : Nat} {cmd : WireCmd} {reply : List Byte}
    (hl : ∀ g : Config, respLenOf g cmd [] = (g.respLen.get cmd).toNat) (hc : s'.cfg = s.cfg) (ht : s'.tr = s.tr)
    (hr : s'.ready = s.ready) (h : FindHit s u c cmd reply) :
    ∃ v, findOn sid op c cmd s' = (true, v) ∧ v.tr = u.tr ∧ v.ready = s.ready ∧ v.log = s'.log ∧
      reply.take 8 <+: addrBytes v.lastAddr ∧ Sent s' v
        [[s.cfg.marker, byteOf c, s.cfg.opc.get cmd, 0], [s.cfg.marker, byteOf c, s.cfg.opc.getAddress, 0]] := by
  obtain ⟨w, hx, hx2⟩ := h
  have hn : respLenOf s'.cfg cmd [] = (s.cfg.respLen.get cmd).toNat := by rw [hl, hc]
  obtain ⟨g1, g2, g3⟩ := exchangeCh_congr c cmd [] (s.cfg.respLen.get cmd).toNat hc ht hr
  obtain ⟨et, es⟩ := exchangeCh_spec c cmd [] (s.cfg.respLen.get cmd).toNat s'
  have ec := (exchangeCh_spec c cmd [] (s.cfg.respLen.get cmd).toNat s).1.cfg
  have er := exchangeCh_ok_ready (congrArg Prod.fst hx)
  have hw : [wireFrame s'.cfg (byteOf c) cmd []] = [[s.cfg.marker, byteOf c, s.cfg.opc.get cmd, 0]] := by
    rw [hc]; rfl
  rw [hw] at es
  generalize hq : exchangeCh c cmd [] (s.cfg.respLen.get cmd).toNat s' = q at *
  obtain ⟨q1, q2⟩ := q
  rw [hx] at g1 g2 g3 ec er
  simp only at g1 g2 g3 ec er
  have hcq : q2.cfg = s'.cfg := et.cfg
  obtain ⟨k1, k2, k3⟩ := exchangeCh_congr c .getAddress [] s.cfg.respLen.getAddress.toNat
    (hcq.trans (hc.trans ec.symm)) g2 g3
  obtain ⟨ft, fs⟩ := exchangeCh_spec c .getAddress [] s.cfg.respLen.getAddress.toNat q2
  have fr := exchangeCh_ok_ready (congrArg Prod.fst hx2)
  have hn2 : respLenOf q2.cfg .getAddress [] = s.cfg.respLen.getAddress.toNat := by rw [hcq, hc]; rfl
  have hw2 : [wireFrame q2.cfg (byteOf c) .getAddress []] = [[s.cfg.marker, byteOf c, s.cfg.opc.getAddress, 0]] := by
    rw [hcq, hc]; rfl
  rw [hw2] at fs
  generalize hp : exchangeCh c .getAddress [] s.cfg.respLen.getAddress.toNat q2 = p at *
  obtain ⟨p1, p2⟩ := p
  rw [hx2] at k1 k2 k3 fr
  simp only at k1 k2 k3 fr
  refine ⟨p2.setAddr (fetchedAddr q2.draws c reply), ?_, k2, k3.trans (fr.trans er), ft.log.trans et.log,
    fetchedAddr_prefix .., (es.trans fs).of_tr rfl rfl⟩
  have hflag : flagTrue s'.cfg s.cfg.flagByte = true := by simp [flagTrue, hc]
  simp only [findOn, hn, hq, g1, soleByte_one, hflag, ite_true, fetchAddr, hn2, hp, k1]

/-- A ready channel on which FIND_FIRST fails, before a scan that gets nothing (R222, R228). -/
theorem ScanMissed.fails {sid : Nat} {op : HostOp} {s u : State} {c : Nat} {cs : List Nat} {cause : Cause}
    {info : BitVec 16} {sent : List (List Byte)} {recs : List LogRec} (hr : s.readyAt c = true)
    (hx : (exchangeCh c .findFirst [] s.cfg.respLen.findFirst.toNat s).1 = .err cause info)
    (h : ScanMissed sid op (exchangeCh c .findFirst [] s.cfg.respLen.findFirst.toNat s).2 cs u sent recs) :
    ScanMissed sid op s (c :: cs) u ([s.cfg.marker, byteOf c, s.cfg.opc.findFirst, 0] :: sent)
      (⟨sid, op, c, .findFirst, .err cause info⟩ :: recs) :=
  .miss (sent := [[s.cfg.marker, byteOf c, s.cfg.opc.findFirst, 0]])
    (recs := [⟨sid, op, c, .findFirst, .err cause info⟩]) hr (.inr (.inl ⟨cause, info, Prod.ext hx rfl, rfl, rfl⟩)) h

/-- A scan of channels on which the search gets nothing goes on with the next channel (R222). -/
theorem scanOver_missed {sid : Nat} {op : HostOp} {s u : State} {l : List Nat} {sent : List (List Byte)}
    {recs : List LogRec} (h : ScanMissed sid op s l u sent recs) (cs : List Nat) (s' : State) (hc : s'.cfg = s.cfg)
    (ht : s'.tr = s.tr) (hr : s'.ready = s.ready) :
    ∃ v, scanOver sid op (l ++ cs) s' = scanOver sid op cs v ∧ Kept s' v ∧ u.cfg = s.cfg ∧ v.tr = u.tr ∧
      v.ready = u.ready ∧ v.log = s'.log ++ recs ∧ Sent s' v sent := by
  induction h generalizing s' with
  | nil s => exact ⟨s', rfl, Kept.refl s', rfl, ht, hr, by simp, Sent.none rfl⟩
  | @skip s u c cs' sent recs hrc _ ih =>
    obtain ⟨v, e, k, c1, h1, h2, h3, h4⟩ := ih (((s'.setSState .searching).setCursor c).setCi c) hc ht hr
    refine ⟨v, ?_, (((Kept.setSState s' _).trans (Kept.setCursor _ _)).trans (Kept.setCi _ _)).trans k, c1, h1, h2, h3,
      h4.of_tr rfl rfl⟩
    have hrc' : s'.readyAt c = false := by simp only [State.readyAt, hr]; exact hrc
    rw [← e]
    simp [scanOver, hrc']
  | @miss s w u c cs' sent sent' recs recs' hrc hm _ ih =>
    have k0 : Kept s' (((s'.setSState .searching).setCursor c).setCi c) :=
      ((Kept.setSState s' _).trans (Kept.setCursor _ _)).trans (Kept.setCi _ _)
    have fk := (findOn_spec sid op c .findFirst (((s'.setSState .searching).setCursor c).setCi c)).1
    obtain ⟨f, fe, f1, f2, f3, f4, f5, -⟩ := findOn_missed (s' := ((s'.setSState .searching).setCursor c).setCi c)
      (fun _ => rfl) hc ht hr hm
    rw [fe] at fk
    obtain ⟨v, e, k, c1, h1, h2, h3, h4⟩ := ih f ((fk.cfg.trans hc).trans f4.symm) f1 f2
    have hrc' : s'.readyAt c = true := by simp only [State.readyAt, hr]; exact hrc
    refine ⟨v, ?_, (k0.trans fk).trans k, c1.trans f4, h1, h2, ?_, ?_⟩
    · rw [← e]
      simp [scanOver, hrc', fe]
    · rw [h3, f3]
      simp
    · exact (f5.of_tr (s' := s') (t' := f) rfl rfl).trans h4

/-- A scan whose next channel gives the flag byte and an address has found it there (R222, R23). -/
theorem scanOver_hit {sid : Nat} {op : HostOp} {s u : State} {c : Nat} {reply : List Byte} (cs : List Nat) (s' : State)
    (hc : s'.cfg = s.cfg) (ht : s'.tr = s.tr) (hr : s'.ready = s.ready) (hrc : s.readyAt c = true)
    (h : FindHit s u c .findFirst reply) :
    ∃ v, scanOver sid op (c :: cs) s' = (true, v) ∧ v.tr = u.tr ∧ v.ready = s.ready ∧ v.log = s'.log ∧ v.cursor = c ∧
      reply.take 8 <+: addrBytes v.lastAddr ∧ Sent s' v
        [[s.cfg.marker, byteOf c, s.cfg.opc.findFirst, 0], [s.cfg.marker, byteOf c, s.cfg.opc.getAddress, 0]] := by
  obtain ⟨v, e, h1, h2, h3, h4, h5⟩ := findOn_found (sid := sid) (op := op)
    (s' := ((s'.setSState .searching).setCursor c).setCi c) (fun _ => rfl) hc ht hr h
  have hcu := (findOn_spec sid op c .findFirst (((s'.setSState .searching).setCursor c).setCi c)).2.1
  rw [e] at hcu
  have hrc' : s'.readyAt c = true := by simp only [State.readyAt, hr]; exact hrc
  exact ⟨v.setSState .found, by simp [scanOver, hrc', e], h1, h2, h3, hcu, h4, h5.of_tr rfl rfl⟩

/-- Where findNextDevice gets nothing from the cursor's channel, it goes on with its fallback from a state that is `u` as
far as the transport and the ready table go (R224). -/
theorem findNext_missed {s u : State} {sid : Nat} {sent : List (List Byte)} {recs : List LogRec} (i : Instr)
    (h : FindNextMissed s u sid sent recs) :
    ∃ v, findNext sid (s.accept i) = findNextFallback sid s.cursor v ∧ Kept (s.accept i) v ∧ u.cfg = s.cfg ∧
      v.tr = u.tr ∧ v.ready = u.ready ∧ v.log = s.log ++ recs ∧ Sent (s.accept i) v sent ∧
      ∀ x, x ≠ s.cursor → v.readyAt x = s.readyAt x := by
  let s0 := (s.accept i).setSState .searching
  have k0 : Kept (s.accept i) s0 := Kept.setSState _ _
  rcases h with ⟨hr, rfl, rfl, rfl⟩ | ⟨hr, hm⟩
  · exact ⟨s0, by simp [findNext, hr, s0], k0, rfl, rfl, rfl, by simp [s0], Sent.none rfl, fun _ _ => rfl⟩
  · obtain ⟨v, e, h1, h2, h3, h4, h5, h6⟩ := findOn_missed (s := s) (s' := s0) (fun _ => rfl) rfl rfl rfl hm
    have fk := (findOn_spec sid .findNextDevice s.cursor .findNext s0).1
    rw [e] at fk
    refine ⟨v, ?_, k0.trans fk, h4, h1, h2, h3, h5.of_tr rfl rfl, h6⟩
    have hru : s0.readyAt s.cursor = true := hr
    simp only [findNext]
    rw [show ((s.accept i).setSState .searching).readyAt (s.accept i).cursor = true from hru,
      show findOn sid .findNextDevice (s.accept i).cursor .findNext ((s.accept i).setSState .searching) = _ from e]
    rfl

end Sys2Proof.Machine
end

