-- ==== Sys2Proof/Laws/PerInstr.lean ====
section
/-! SUPPORT. Facts about every instruction as syntax, one lemma for each constructor. `EncodeFormat` says which of the
three formats (30_encoding.md R80, R81, R90) the encoder writes: a request frame begins with `MARKER` and carries the
command byte of its mnemonic, a host request carries the operation code of its mnemonic, a response frame carries its
status. -/

namespace Sys2Proof.Laws.EncodeFormat

/-- The request frame of a command. -/
def IsRequest (cmd : WireCmd) (i : Instr) : Prop :=
  ∀ c : Config, ∃ ch pay,
    encode c i = .request ([c.marker, ch, c.opc.get cmd, byteOf pay.length] ++ pay) ∧
      (wellFormed c i = true → pay.length ≤ 255 ∧ ch.toNat < c.maxChannels)

/-- The host request of an operation. -/
def IsHost (op : HostOp) (i : Instr) : Prop :=
  ∀ c : Config, ∃ r : HostRequest,
    encode c i = .host r ∧ r.op = op.code ∧ (wellFormed c i = true → r.sid < c.nSessions)

/-- The response frame of a status class. -/
def IsResponse (status : Config → Byte) (i : Instr) : Prop :=
  ∀ c : Config, ∃ ch pay,
    encode c i = .response ([ch, status c, byteOf pay.length] ++ pay) ∧ (wellFormed c i = true → pay.length ≤ 255)

/-- The format of an instruction's encoding (R80, R81, R90). -/
def Statement : Instr → Prop
  | i@(.cmdPingChannel _) => IsRequest .pingChannel i
  | i@(.cmdFindFirst _) => IsRequest .findFirst i
  | i@(.cmdFindNext _) => IsRequest .findNext i
  | i@(.cmdGetAddress _) => IsRequest .getAddress i
  | i@(.cmdSetSearchOnlyAlarming _) => IsRequest .setSearchOnlyAlarming i
  | i@(.cmdSetNoResetSearch _) => IsRequest .setNoResetSearch i
  | i@(.cmdSetSearchAll _) => IsRequest .setSearchAll i
  | i@(.cmdPutBit _ _) => IsRequest .putBit i
  | i@(.cmdGetByte _) => IsRequest .getByte i
  | i@(.cmdGetBlock _ _) => IsRequest .getBlock i
  | i@(.cmdDataBlock _ _) => IsRequest .dataBlock i
  | i@(.cmdReset _) => IsRequest .reset i
  | i@(.cmdPutByte _ _) => IsRequest .putByte i
  | i@(.cmdSetPowerNormal _ _) => IsRequest .setPowerNormal i
  | i@(.cmdTargetFamily _ _) => IsRequest .targetFamily i
  | i@(.cmdTargetAllFamilies _) => IsRequest .targetAllFamilies i
  | i@(.cmdSearchRom _ _) => IsRequest .searchRom i
  | i@(.cmdMatchRom _ _) => IsRequest .matchRom i
  | i@(.selectPort _ _) => IsHost .selectPort i
  | i@(.freePort _ _) => IsHost .freePort i
  | i@(.adapterDetected _) => IsHost .adapterDetected i
  | i@(.findFirstDevice _) => IsHost .findFirstDevice i
  | i@(.findNextDevice _) => IsHost .findNextDevice i
  | i@(.getAddress _ _) => IsHost .getAddress i
  | i@(.isPresent _ _) => IsHost .isPresent i
  | i@(.select _ _) => IsHost .select i
  | i@(.reset _) => IsHost .reset i
  | i@(.putBit _ _) => IsHost .putBit i
  | i@(.getBit _) => IsHost .getBit i
  | i@(.putByte _ _) => IsHost .putByte i
  | i@(.getByte _) => IsHost .getByte i
  | i@(.getBlock _ _) => IsHost .getBlock i
  | i@(.dataBlock _ _ _) => IsHost .dataBlock i
  | i@(.setSearchOnlyAlarmingDevices _) => IsHost .setSearchOnlyAlarmingDevices i
  | i@(.setNoResetSearch _) => IsHost .setNoResetSearch i
  | i@(.setSearchAllDevices _) => IsHost .setSearchAllDevices i
  | i@(.targetFamily _ _) => IsHost .targetFamily i
  | i@(.targetAllFamilies _) => IsHost .targetAllFamilies i
  | i@(.beginExclusive _ _) => IsHost .beginExclusive i
  | i@(.endExclusive _) => IsHost .endExclusive i
  | i@(.respSuccess _ _) => IsResponse Config.stSuccess i
  | i@(.respFailure _ _) => IsResponse Config.stFailure i
  | i@(.respOther _ status _) => IsResponse (fun _ => status) i

/-- A frame whose channel exists and whose payload fits (R80, R89). -/
theorem frame_bounds {c : Config} {ch : Byte} {n : Nat} (h : frameOk c ch n = true) :
    n ≤ 255 ∧ ch.toNat < c.maxChannels := by
  simp only [frameOk, Bool.and_eq_true, decide_eq_true_eq] at h
  exact ⟨h.2, h.1⟩

/-- A session that exists (R92). -/
theorem session_bound {c : Config} {sid : Nat} (h : sessionOk c sid = true) : sid < c.nSessions := by
  simpa only [sessionOk, decide_eq_true_eq] using h

theorem cmdPingChannel (ch : Byte) : Statement (.cmdPingChannel ch) := fun _ =>
  ⟨ch, [], rfl, fun h => frame_bounds h⟩

theorem cmdFindFirst (ch : Byte) : Statement (.cmdFindFirst ch) := fun _ =>
  ⟨ch, [], rfl, fun h => frame_bounds h⟩

theorem cmdFindNext (ch : Byte) : Statement (.cmdFindNext ch) := fun _ =>
  ⟨ch, [], rfl, fun h => frame_bounds h⟩

theorem cmdGetAddress (ch : Byte) : Statement (.cmdGetAddress ch) := fun _ =>
  ⟨ch, [], rfl, fun h => frame_bounds h⟩

theorem cmdSetSearchOnlyAlarming (ch : Byte) : Statement (.cmdSetSearchOnlyAlarming ch) := fun _ =>
  ⟨ch, [], rfl, fun h => frame_bounds h⟩

theorem cmdSetNoResetSearch (ch : Byte) : Statement (.cmdSetNoResetSearch ch) := fun _ =>
  ⟨ch, [], rfl, fun h => frame_bounds h⟩

theorem cmdSetSearchAll (ch : Byte) : Statement (.cmdSetSearchAll ch) := fun _ =>
  ⟨ch, [], rfl, fun h => frame_bounds h⟩

theorem cmdPutBit (ch : Byte) (v : Bool) : Statement (.cmdPutBit ch v) := fun _ =>
  ⟨ch, [Machine.bool8 v], rfl, fun h => frame_bounds h⟩

theorem cmdGetByte (ch : Byte) : Statement (.cmdGetByte ch) := fun _ =>
  ⟨ch, [], rfl, fun h => frame_bounds h⟩

theorem cmdGetBlock (ch : Byte) (n : Byte) : Statement (.cmdGetBlock ch n) := fun _ =>
  ⟨ch, [n], rfl, fun h => frame_bounds h⟩

theorem cmdDataBlock (ch : Byte) (block : List Byte) : Statement (.cmdDataBlock ch block) := fun _ =>
  ⟨ch, block, rfl, fun h => frame_bounds h⟩

theorem cmdReset (ch : Byte) : Statement (.cmdReset ch) := fun _ =>
  ⟨ch, [], rfl, fun h => frame_bounds h⟩

theorem cmdPutByte (ch : Byte) (v : Byte) : Statement (.cmdPutByte ch v) := fun _ =>
  ⟨ch, [v], rfl, fun h => frame_bounds h⟩

theorem cmdSetPowerNormal (ch : Byte) (pay : List Byte) : Statement (.cmdSetPowerNormal ch pay) := fun _ =>
  ⟨ch, pay, rfl, fun h => frame_bounds h⟩

theorem cmdTargetFamily (ch : Byte) (family : Byte) : Statement (.cmdTargetFamily ch family) := fun _ =>
  ⟨ch, [family], rfl, fun h => frame_bounds h⟩

theorem cmdTargetAllFamilies (ch : Byte) : Statement (.cmdTargetAllFamilies ch) := fun _ =>
  ⟨ch, [], rfl, fun h => frame_bounds h⟩

theorem cmdSearchRom (ch : Byte) (addr : DevAddr) : Statement (.cmdSearchRom ch addr) := fun _ =>
  ⟨ch, (Machine.addrBytes addr), rfl, fun h => frame_bounds h⟩

theorem cmdMatchRom (ch : Byte) (addr : DevAddr) : Statement (.cmdMatchRom ch addr) := fun _ =>
  ⟨ch, (Machine.addrBytes addr), rfl, fun h => frame_bounds h⟩

theorem selectPort (sid : Nat) (port : Nat) : Statement (.selectPort sid port) := fun _ =>
  ⟨_, rfl, rfl, fun h => session_bound h⟩

theorem freePort (sid : Nat) (port : Nat) : Statement (.freePort sid port) := fun _ =>
  ⟨_, rfl, rfl, fun h => session_bound h⟩

theorem adapterDetected (sid : Nat) : Statement (.adapterDetected sid) := fun _ =>
  ⟨_, rfl, rfl, fun h => session_bound h⟩

theorem findFirstDevice (sid : Nat) : Statement (.findFirstDevice sid) := fun _ =>
  ⟨_, rfl, rfl, fun h => session_bound h⟩

theorem findNextDevice (sid : Nat) : Statement (.findNextDevice sid) := fun _ =>
  ⟨_, rfl, rfl, fun h => session_bound h⟩

theorem getAddress (sid : Nat) (off : Nat) : Statement (.getAddress sid off) := fun _ =>
  ⟨_, rfl, rfl, fun h => session_bound (Bool.and_eq_true _ _ ▸ h).1⟩

theorem isPresent (sid : Nat) (addr : DevAddr) : Statement (.isPresent sid addr) := fun _ =>
  ⟨_, rfl, rfl, fun h => session_bound h⟩

theorem select (sid : Nat) (addr : DevAddr) : Statement (.select sid addr) := fun _ =>
  ⟨_, rfl, rfl, fun h => session_bound h⟩

theorem reset (sid : Nat) : Statement (.reset sid) := fun _ =>
  ⟨_, rfl, rfl, fun h => session_bound h⟩

theorem putBit (sid : Nat) (v : Bool) : Statement (.putBit sid v) := fun _ =>
  ⟨_, rfl, rfl, fun h => session_bound h⟩

theorem getBit (sid : Nat) : Statement (.getBit sid) := fun _ =>
  ⟨_, rfl, rfl, fun h => session_bound h⟩

theorem putByte (sid : Nat) (v : Byte) : Statement (.putByte sid v) := fun _ =>
  ⟨_, rfl, rfl, fun h => session_bound h⟩

theorem getByte (sid : Nat) : Statement (.getByte sid) := fun _ =>
  ⟨_, rfl, rfl, fun h => session_bound h⟩

theorem getBlock (sid : Nat) (n : Byte) : Statement (.getBlock sid n) := fun _ =>
  ⟨_, rfl, rfl, fun h => session_bound h⟩

theorem dataBlock (sid : Nat) (off : Nat) (n : Byte) : Statement (.dataBlock sid off n) := fun _ =>
  ⟨_, rfl, rfl, fun h => session_bound (Bool.and_eq_true _ _ ▸ h).1⟩

theorem setSearchOnlyAlarmingDevices (sid : Nat) : Statement (.setSearchOnlyAlarmingDevices sid) := fun _ =>
  ⟨_, rfl, rfl, fun h => session_bound h⟩

theorem setNoResetSearch (sid : Nat) : Statement (.setNoResetSearch sid) := fun _ =>
  ⟨_, rfl, rfl, fun h => session_bound h⟩

theorem setSearchAllDevices (sid : Nat) : Statement (.setSearchAllDevices sid) := fun _ =>
  ⟨_, rfl, rfl, fun h => session_bound h⟩

theorem targetFamily (sid : Nat) (family : Byte) : Statement (.targetFamily sid family) := fun _ =>
  ⟨_, rfl, rfl, fun h => session_bound h⟩

theorem targetAllFamilies (sid : Nat) : Statement (.targetAllFamilies sid) := fun _ =>
  ⟨_, rfl, rfl, fun h => session_bound h⟩

theorem beginExclusive (sid : Nat) (blocking : Bool) : Statement (.beginExclusive sid blocking) := fun _ =>
  ⟨_, rfl, rfl, fun h => session_bound h⟩

theorem endExclusive (sid : Nat) : Statement (.endExclusive sid) := fun _ =>
  ⟨_, rfl, rfl, fun h => session_bound h⟩

theorem respSuccess (ch : Byte) (pay : List Byte) : Statement (.respSuccess ch pay) := fun _ =>
  ⟨ch, pay, rfl, fun h => by simpa only [wellFormed, decide_eq_true_eq] using h⟩

theorem respFailure (ch : Byte) (pay : List Byte) : Statement (.respFailure ch pay) := fun _ =>
  ⟨ch, pay, rfl, fun h => by simpa only [wellFormed, decide_eq_true_eq] using h⟩

theorem respOther (ch : Byte) (status : Byte) (pay : List Byte) : Statement (.respOther ch status pay) := fun _ =>
  ⟨ch, pay, rfl, fun h => by simp only [wellFormed, Bool.and_eq_true, decide_eq_true_eq] at h; exact h.2⟩

end Sys2Proof.Laws.EncodeFormat
end

