-- ==== Sys2Proof/Laws/Step.lean ====
section
/-! SUPPORT. What a step can do, said once: what the arbiter takes at once, which instruction a step runs, and what
every other event does. -/

namespace Sys2Proof.Machine

/-- What the arbiter takes at once (R96): a legal operation of its own, of a session with nothing outstanding. -/
theorem arbiterAsked_eq_some {r : HostRequest} {s : State} {i : Instr} :
    arbiterAsked r s = some i ↔ decodeHost r = .ok i ∧ isArbiterOp i = true ∧ wellFormed s.cfg i = true ∧
      (s.session r.sid).astate = .idle := by
  unfold arbiterAsked
  cases decodeHost r with
  | error e => simp
  | ok j =>
    simp only [Except.ok.injEq]
    by_cases hj : j = i
    · subst hj; simp [and_assoc]
    · split <;> simp_all

/-- Only the codes 20 and 21 ask for the arbiter (R91). -/
theorem arbiterAsked_routed {r : HostRequest} {s : State} (h20 : r.op ≠ 20) (h21 : r.op ≠ 21) :
    arbiterAsked r s = none := by
  cases h : arbiterAsked r s with
  | none => rfl
  | some i =>
    obtain ⟨hd, ha, -⟩ := arbiterAsked_eq_some.1 h
    cases ho : hostOpOfCode r.op with
    | none => simp [decodeHost, ho] at hd
    | some op =>
      have hop : op.code = r.op := by simpa using List.find?_some ho
      simp only [decodeHost, ho, Except.ok.injEq] at hd
      subst hd
      cases op with
      | beginExclusive => exact absurd hop.symm h20
      | endExclusive => exact absurd hop.symm h21
      | _ => simp [hostInstr, isArbiterOp] at ha

/-- What one step that answers a next state has done (R66, R96): it waited, ran the instruction of a host request or of
the sequencer's frame, made a session's attempt, or let one of the other events happen. -/
inductive Stepped (s t : State) : Prop where
  /-- Nothing to do in `PH_IDLE`, or a routed request that waits there for `busy` to clear. -/
  | waited (h : t = s)
  /-- The head of the agenda is gone and nothing else has happened. -/
  | passed (e : Event) (rest : List Event) (ha : s.agenda = e :: rest) (h : t = s.setAgenda rest)
  /-- A host request at the head of the agenda is served. -/
  | host (r : HostRequest) (rest : List Event) (i : Instr) (ha : s.agenda = .request r :: rest)
      (hd : decodeHost r = .ok i) (hw : wellFormed s.cfg i = true)
      (hs : (s.session r.sid).astate ≠ .polling) (hb : s.seq.busy = false ∨ isArbiterOp i = true)
      (h : exec i (issue r rest s) = .next t)
  /-- The sequencer's own frame is run. -/
  | frame (e : Encoded) (a : List Event) (i : Instr) (hp : s.seq.phase ≠ .idle) (he : frameWord s = some e)
      (ha : a = s.agenda ∨ s.agenda = .sequencer :: a) (hd : decode s.cfg e = .ok i)
      (h : exec i (s.setAgenda a) = .next t)
  /-- A polling session's attempt. -/
  | attempt (sid : Nat) (a : List Event) (ha : a = s.agenda ∨ s.agenda = .attempt sid :: a)
      (h : t = pollAttempt sid (s.setAgenda a))
  | arrived (bytes : List Byte) (rest : List Event) (ha : s.agenda = .arrive bytes :: rest)
      (h : t = arriveBytes bytes (s.setAgenda rest))
  | streamLeft (bytes : List Byte) (rest : List Event) (ha : s.agenda = .streamLeft bytes :: rest)
      (h : t = leaveStream bytes (s.setAgenda rest))
  | stored (addr : Nat) (b : Byte) (rest : List Event) (ha : s.agenda = .callerStore addr b :: rest)
      (hin : addr < 2 ^ s.cfg.bufAw) (h : t = memWrite (s.setAgenda rest) addr [b])
  | reset (rest : List Event) (ha : s.agenda = .resetInput :: rest) (hq : quiescent (s.setAgenda rest) = true)
      (h : t = resetCore (s.setAgenda rest))

/-- The sequencer's step runs the frame in its buffers. -/
theorem sequencerStep_next {s t : State} (hp : s.seq.phase ≠ .idle) (h : sequencerStep s = .next t) :
    ∃ e i, frameWord s = some e ∧ decode s.cfg e = .ok i ∧ exec i s = .next t := by
  unfold sequencerStep at h
  split at h
  · exact absurd ‹_› hp
  all_goals first
    | cases h
    | (rename_i hph
       unfold serveFrame at h
       split at h
       · rename_i i hi
         exact ⟨_, i, by simp only [frameWord, hph], hi, h⟩
       · cases h)

/-- The sequencer's step, in whatever phase. -/
theorem sequencerStep_stepped {s t : State} {a : List Event} (ha : a = s.agenda ∨ s.agenda = .sequencer :: a)
    (h : sequencerStep (s.setAgenda a) = .next t) : Stepped s t := by
  by_cases hp : s.seq.phase = .idle
  · have e : t = s.setAgenda a := by
      have : sequencerStep (s.setAgenda a) = .next (s.setAgenda a) := by simp [sequencerStep, hp]
      rw [this] at h
      cases h
      rfl
    rcases ha with rfl | ha
    · exact .waited e
    · exact .passed _ a ha e
  · obtain ⟨e, i, h1, h2, h3⟩ := sequencerStep_next (s := s.setAgenda a) hp h
    exact .frame e a i hp h1 ha h2 h3

/-- A step that answers a next state has done one of the things of `Stepped`. -/
theorem step_cases {s t : State} (h : step s = .next t) : Stepped s t := by
  unfold step stepBody at h
  split at h
  · exact sequencerStep_stepped (.inl rfl) h
  · rename_i r rest ha
    unfold serveRequest at h
    split at h
    · rename_i i hi
      obtain ⟨hd, hx, hw, hs⟩ := arbiterAsked_eq_some.1 hi
      exact .host r rest i ha hd hw (by simp [hs]) (.inr hx) h
    · split at h
      · unfold takeRequest at h
        split at h
        · exact .attempt r.sid s.agenda (.inl rfl) (by cases h; rfl)
        · rename_i hs
          split at h
          · exact .passed _ rest ha (by cases h; rfl)
          · rename_i i hd
            split at h
            · exact .passed _ rest ha (by cases h; rfl)
            · rename_i hw
              split at h
              · exact .waited (by cases h; rfl)
              · rename_i hb
                exact .host r rest i ha hd (by simpa using hw) hs (.inl (by simpa using hb)) h
      · exact sequencerStep_stepped (.inl rfl) h
  · rename_i sid rest ha
    exact .attempt sid rest (.inr ha) (by cases h; rfl)
  · rename_i rest ha
    exact sequencerStep_stepped (.inr ha) h
  · rename_i bytes rest ha
    exact .arrived bytes rest ha (by cases h; rfl)
  · rename_i bytes rest ha
    exact .streamLeft bytes rest ha (by cases h; rfl)
  · rename_i addr b rest ha
    unfold callerStore at h
    split at h
    · exact .stored addr b rest ha ‹_› (by cases h; rfl)
    · cases h
  · rename_i rest ha
    unfold resetInput at h
    split at h
    · exact .reset rest ha ‹_› (by cases h; rfl)
    · cases h

/-- The sequencer's turn: the step is its own, and its frame is what stands to be run. -/
theorem SequencersTurn.step {s : State} {a : List Event} (hp : s.seq.phase ≠ .idle) (h : SequencersTurn s a) :
    step s = sequencerStep (s.setAgenda a) ∧ fetchWord s = frameWord s := by
  have self : s.setAgenda s.agenda = s := rfl
  rcases h with ⟨ha, rfl⟩ | ha | ⟨r, rest, ha, hn, rfl⟩
  · rw [← ha, self]
    simp [Sys2Proof.Machine.step, stepBody, fetchWord, ha]
  · simp [Sys2Proof.Machine.step, stepBody, fetchWord, ha]
  · rw [self]
    simp [Sys2Proof.Machine.step, stepBody, fetchWord, ha, serveRequest, hn, hp]

end Sys2Proof.Machine
end

