-- ==== Sys2Proof/Tests/Slice0.lean ====
section
/-! SUPPORT. The model's own tests: ill-formed instructions refused, words written out from the encodings of
30_encoding.md with `OPC_REF` (the frames of 95_test_vectors.md part 2.4) decoded, one step on small states with the
expected values of 95_test_vectors.md, and for each obligation with hypotheses a state that meets them. -/

namespace Sys2Proof.Tests

open Sys2Proof Sys2Proof.Machine

/-! Small states. -/

/-- The configuration of the vectors: the documented defaults, three channels, three sessions, `BUF_AW = 8`. -/
def cfg : Config :=
  { Config.reference with
    maxChannels := 3, nSessions := 3, tReadTimeout := 1000, presencePolicy := .raise }

/-- The same under `AsNotFound`. -/
def cfgSoft : Config := { cfg with presencePolicy := .asNotFound }

/-- The same with another `RESP_LEN` table: GET_BYTE answers two bytes. -/
def cfgOther : Config := { cfg with respLen := { Config.respLenDefault with getByte := 2 } }

/-- The same with a `RESP_LEN` table in which GET_ADDRESS answers two bytes. -/
def cfgShort : Config := { cfg with respLen := { Config.respLenDefault with getAddress := 2 } }

/-- The address `28 FF 10 00 93 16 04 7E` of the vectors. -/
def addrB : DevAddr := ⟨0x28, 0xFF, 0x10, 0x00, 0x93, 0x16, 0x04, 0x7E⟩

/-- Channels 0 and 1 ready; the bytes that arrive before each read, in order; every write and flush succeeds. -/
def withArrivals (c : Config) (arrivals : List (List Byte)) : State :=
  { State.resetWith c with
    ready := [true, true, false],
    tr := { Transport.fresh with
      writeAns := List.replicate 6 true, flushAns := List.replicate 6 true, arrivals := arrivals } }

/-- The same with `cursor = 1`. -/
def onChannel1 (c : Config) (arrivals : List (List Byte)) : State := (withArrivals c arrivals).setCursor 1

/-- A device that answers with these bytes. -/
def answering (bytes : List Byte) : State := withArrivals cfg [bytes]

/-- A device that sends nothing. -/
def silent : State := withArrivals cfg [[]]

/-- A link whose next write fails. -/
def broken : State := silent.setTr { silent.tr with writeAns := [false] }

/-- Session 0 holds the token. -/
def held : State := ((State.resetWith cfg).updSession 0 (fun e => { e with holds := true })).setExcl true

/-- A stream that holds bytes nobody asked for. -/
def poisonedStream : State := silent.setTr { silent.tr with rx := [0x09] }

/-- A test of the state an instruction answers. -/
def after (o : Host.Outcome State Fault Refusal) (p : State → Bool) : Bool :=
  match o with
  | .next t => p t
  | .fault _ => false
  | .refused _ => false

/-- The outcome of one exchange on a stream of bytes (T-V1 to T-V16). -/
def outcomeOf (ch : Byte) (n : Nat) (bytes : List Byte) : XRes :=
  (exchange ch .getByte [] n (withArrivals cfg [bytes, []])).1

/-! Well-formedness: each check refuses an ill-formed term (R7, R50, R89, R92). -/

theorem test_wf_channel : wellFormed cfg (.cmdReset 0x03) = false := by decide
theorem test_wf_channel_last : wellFormed cfg (.cmdReset 0x02) = true := by decide
theorem test_wf_payload : wellFormed cfg (.cmdDataBlock 0x00 (List.replicate 256 0)) = false := by
  simp only [wellFormed, frameOk, List.length_replicate]; decide
theorem test_wf_payload_last : wellFormed cfg (.cmdDataBlock 0x00 (List.replicate 255 0)) = true := by
  simp only [wellFormed, frameOk, List.length_replicate]; decide
theorem test_wf_session : wellFormed cfg (.getByte 3) = false := by decide
theorem test_wf_region : wellFormed cfg (.dataBlock 0 254 4) = false := by decide
theorem test_wf_address_region : wellFormed cfg (.getAddress 0 249) = false := by decide
theorem test_wf_address_region_last : wellFormed cfg (.getAddress 0 248) = true := by decide
theorem test_wf_empty_region : wellFormed cfg (.dataBlock 0 255 0) = true := by decide
theorem test_wf_offset_width : wellFormed cfg (.dataBlock 0 256 0) = false := by decide
theorem test_wf_response_length : wellFormed cfg (.respSuccess 0x00 (List.replicate 256 0)) = false := by
  simp only [wellFormed, List.length_replicate]; decide
theorem test_wf_other_status : wellFormed cfg (.respOther 0x00 0xFF []) = false := by decide

/-! Decoding, one word or frame for every constructor. -/

theorem test_decode_ping_channel :
    decodeRequestFrame cfg [0xDD, 0x02, 0x01, 0x00] = .ok (.cmdPingChannel 0x02) := by decide
theorem test_decode_find_first :
    decodeRequestFrame cfg [0xDD, 0x00, 0x02, 0x00] = .ok (.cmdFindFirst 0x00) := by decide
theorem test_decode_find_next : decodeRequestFrame cfg [0xDD, 0x00, 0x03, 0x00] = .ok (.cmdFindNext 0x00) := by decide
theorem test_decode_get_address :
    decodeRequestFrame cfg [0xDD, 0x01, 0x04, 0x00] = .ok (.cmdGetAddress 0x01) := by decide
theorem test_decode_set_search_only_alarming :
    decodeRequestFrame cfg [0xDD, 0x00, 0x05, 0x00] = .ok (.cmdSetSearchOnlyAlarming 0x00) := by decide
theorem test_decode_set_no_reset_search :
    decodeRequestFrame cfg [0xDD, 0x01, 0x06, 0x00] = .ok (.cmdSetNoResetSearch 0x01) := by decide
theorem test_decode_set_search_all :
    decodeRequestFrame cfg [0xDD, 0x00, 0x07, 0x00] = .ok (.cmdSetSearchAll 0x00) := by decide
theorem test_decode_put_bit :
    decodeRequestFrame cfg [0xDD, 0x00, 0x08, 0x01, 0x01] = .ok (.cmdPutBit 0x00 true) := by decide
theorem test_decode_get_byte : decodeRequestFrame cfg [0xDD, 0x00, 0x09, 0x00] = .ok (.cmdGetByte 0x00) := by decide
theorem test_decode_get_block :
    decodeRequestFrame cfg [0xDD, 0x00, 0x0A, 0x01, 0x03] = .ok (.cmdGetBlock 0x00 0x03) := by decide
theorem test_decode_data_block :
    decodeRequestFrame cfg [0xDD, 0x00, 0x0B, 0x02, 0xAA, 0x55] = .ok (.cmdDataBlock 0x00 [0xAA, 0x55]) := by decide
theorem test_decode_reset : decodeRequestFrame cfg [0xDD, 0x00, 0x0C, 0x00] = .ok (.cmdReset 0x00) := by decide
theorem test_decode_put_byte :
    decodeRequestFrame cfg [0xDD, 0x01, 0x0D, 0x01, 0xCC] = .ok (.cmdPutByte 0x01 0xCC) := by decide
theorem test_decode_set_power_normal :
    decodeRequestFrame cfg [0xDD, 0x00, 0x0E, 0x01, 0x07] = .ok (.cmdSetPowerNormal 0x00 [0x07]) := by decide
theorem test_decode_target_family :
    decodeRequestFrame cfg [0xDD, 0x00, 0x0F, 0x01, 0x28] = .ok (.cmdTargetFamily 0x00 0x28) := by decide
theorem test_decode_target_all_families :
    decodeRequestFrame cfg [0xDD, 0x00, 0x10, 0x00] = .ok (.cmdTargetAllFamilies 0x00) := by decide
theorem test_decode_search_rom :
    decodeRequestFrame cfg [0xDD, 0x01, 0x11, 0x08, 0x28, 0xFF, 0x10, 0x00, 0x93, 0x16, 0x04, 0x7E] = .ok (.cmdSearchRom 0x01 addrB) := by
  decide
theorem test_decode_match_rom :
    decodeRequestFrame cfg [0xDD, 0x00, 0x12, 0x08, 0x28, 0xFF, 0x10, 0x00, 0x93, 0x16, 0x04, 0x7E] = .ok (.cmdMatchRom 0x00 addrB) := by
  decide
theorem test_decode_success :
    decodeResponseFrame cfg [0x00, 0x00, 0x01, 0xA5] = .ok (.respSuccess 0x00 [0xA5]) := by decide
theorem test_decode_failure : decodeResponseFrame cfg [0x02, 0xFF, 0x00] = .ok (.respFailure 0x02 []) := by decide
theorem test_decode_other : decodeResponseFrame cfg [0x00, 0x5A, 0x00] = .ok (.respOther 0x00 0x5A []) := by decide
theorem test_decode_rest :
    decodeResponse [0x00, 0x00, 0x01, 0x01, 0x00] = .response 0x00 0x00 [0x01] [0x00] := by decide
theorem test_decode_bad_marker : decodeRequestFrame cfg [0xDC, 0x00, 0x0C, 0x00] = .error .badMarker := by decide
theorem test_decode_short : decodeRequestFrame cfg [0xDD, 0x00, 0x0B, 0x02, 0xAA] = .error .short := by decide
theorem test_decode_unknown : decodeRequestFrame cfg [0xDD, 0x00, 0x13, 0x00] = .error .unknownCommand := by decide
theorem test_decode_reserved_op : decodeTableWord 8 0x16 = none := by decide

/-- A host request with every operand field set, so that a field read wrongly shows. -/
def requestOf (op : BitVec 5) : HostRequest :=
  { sid := 1, op := op, val8 := 0xCD, len8 := 0x04, off := 16, addr := addrB, blocking := true, port := 9 }

theorem test_decode_op0_select_port : decodeHost (requestOf 0) = .ok (.selectPort 1 9) := by decide
theorem test_decode_op1_free_port : decodeHost (requestOf 1) = .ok (.freePort 1 9) := by decide
theorem test_decode_op2_adapter_detected : decodeHost (requestOf 2) = .ok (.adapterDetected 1) := by decide
theorem test_decode_op3_find_first_device : decodeHost (requestOf 3) = .ok (.findFirstDevice 1) := by decide
theorem test_decode_op4_find_next_device : decodeHost (requestOf 4) = .ok (.findNextDevice 1) := by decide
theorem test_decode_op5_get_address : decodeHost (requestOf 5) = .ok (.getAddress 1 16) := by decide
theorem test_decode_op6_is_present : decodeHost (requestOf 6) = .ok (.isPresent 1 addrB) := by decide
theorem test_decode_op7_select : decodeHost (requestOf 7) = .ok (.select 1 addrB) := by decide
theorem test_decode_op8_reset : decodeHost (requestOf 8) = .ok (.reset 1) := by decide
theorem test_decode_op9_put_bit : decodeHost (requestOf 9) = .ok (.putBit 1 true) := by decide
theorem test_decode_op10_get_bit : decodeHost (requestOf 10) = .ok (.getBit 1) := by decide
theorem test_decode_op11_put_byte : decodeHost (requestOf 11) = .ok (.putByte 1 0xCD) := by decide
theorem test_decode_op12_get_byte : decodeHost (requestOf 12) = .ok (.getByte 1) := by decide
theorem test_decode_op13_get_block : decodeHost (requestOf 13) = .ok (.getBlock 1 0xCD) := by decide
theorem test_decode_op14_data_block : decodeHost (requestOf 14) = .ok (.dataBlock 1 16 0x04) := by decide
theorem test_decode_op15_set_search_only_alarming_devices :
    decodeHost (requestOf 15) = .ok (.setSearchOnlyAlarmingDevices 1) := by decide
theorem test_decode_op16_set_no_reset_search : decodeHost (requestOf 16) = .ok (.setNoResetSearch 1) := by decide
theorem test_decode_op17_set_search_all_devices :
    decodeHost (requestOf 17) = .ok (.setSearchAllDevices 1) := by decide
theorem test_decode_op18_target_family : decodeHost (requestOf 18) = .ok (.targetFamily 1 0xCD) := by decide
theorem test_decode_op19_target_all_families : decodeHost (requestOf 19) = .ok (.targetAllFamilies 1) := by decide
theorem test_decode_op20_begin_exclusive : decodeHost (requestOf 20) = .ok (.beginExclusive 1 true) := by decide
theorem test_decode_op21_end_exclusive : decodeHost (requestOf 21) = .ok (.endExclusive 1) := by decide
theorem test_decode_put_bit_ignores_high_bits :
    decodeHost { requestOf 9 with val8 := 0xFE } = .ok (.putBit 1 false) := by decide

/-! The frame codec and `Validate` (T-C4, T-V1 to T-V16). -/

theorem test_c4_longest_frame : (encodeRequest cfg 0x03 0x0B (List.replicate 255 0x01)).length = 259 := by
  simp only [encodeRequest, List.length_cons, List.length_replicate]
theorem test_v1 : outcomeOf 0 1 [0x00, 0x00, 0x01, 0x01] = .ok [0x01] := by decide
theorem test_v4_channel_before_status :
    outcomeOf 0 1 [0x01, 0xFF, 0x00] = .err .channelMismatch 0x0001 := by decide
theorem test_v6_failure_with_payload :
    outcomeOf 0 1 [0x00, 0xFF, 0x02, 0x09, 0x09] = .err .statusFailure 0xFF02 := by decide
theorem test_v8_other : outcomeOf 0 1 [0x00, 0x7F, 0x00] = .err .statusOther 0x7F00 := by decide
theorem test_v11_length :
    outcomeOf 0 8 [0x00, 0x00, 0x07, 1, 2, 3, 4, 5, 6, 7] = .err .lengthMismatch 0x0807 := by decide
theorem test_v12_short_header : outcomeOf 0 1 [0x00, 0x00] = .err .shortHeader 0x0200 := by decide
theorem test_v14_short_payload : outcomeOf 0 8 [0x00, 0x00, 0x08, 1, 2, 3] = .err .shortPayload 0x0803 := by decide
theorem test_v16_echo : outcomeOf 1 1 [0xDD, 0x01, 0x01, 0x01] = .err .channelMismatch 0x01DD := by decide

/-! One step of each kind of operation. -/

theorem test_x1_put_byte_link :
    after (exec (.putByte 0 0xCC) (onChannel1 cfg [[0x01, 0x00, 0x00]])) (fun t => t.tr.link ==
      [.write [0xDD, 0x01, 0x0D, 0x01, 0xCC] true, .flush true, .wait 0, .read 3 [0x01, 0x00, 0x00]]) = true := by
  decide
theorem test_x3_ping_waits_a_second :
    after (exec (.cmdPingChannel 0x02) (answering [0x02, 0x00, 0x00])) (fun t => t.tr.link ==
      [.write [0xDD, 0x02, 0x01, 0x00] true, .flush true, .wait 1000, .read 3 [0x02, 0x00, 0x00]]) = true := by
  decide
theorem test_t1_get_bit_nonzero :
    after (exec (.getBit 0) (onChannel1 cfg [[0x01, 0x00, 0x01, 0x80]]))
      (fun t => (t.session 0).result.rbool) = true := by decide
theorem test_t2_get_byte :
    after (exec (.getByte 2) (answering [0x00, 0x00, 0x01, 0xA5]))
      (fun t => (t.session 2).result.rbyte == 0xA5) = true := by decide
theorem test_t3_get_block :
    after (exec (.getBlock 0 5) (answering [0x00, 0x00, 0x05, 0x11, 0x22, 0x33, 0x44, 0x55]))
      (fun t => (t.session 0).result.rdata.take 5 == [0x11, 0x22, 0x33, 0x44, 0x55]) = true := by decide
theorem test_t3_get_block_short_answer :
    after (exec (.getBlock 0 4) (answering [0x00, 0x00, 0x03, 1, 2, 3])) (fun t => t.ready == [false, true, false] &&
      (t.session 0).result.cause == some .lengthMismatch && (t.session 0).result.info == 0x0403) = true := by decide
theorem test_t4_data_block_writes_back :
    after (exec (.dataBlock 0 16 2) (memWrite (answering [0x00, 0x00, 0x02, 0xAA, 0x54]) 16 [0xAA, 0x55]))
      (fun t => t.buf == [(16, 0xAA), (17, 0x54)]) = true := by decide
theorem test_t4_data_block_short_keeps :
    after (exec (.dataBlock 0 16 2) (memWrite (withArrivals cfg [[0x00, 0x00, 0x02], [0x01]]) 16 [0xAA, 0x55]))
      (fun t => t.buf == [(16, 0xAA), (17, 0x55)] && (t.session 0).result.info == 0x0201) = true := by decide
theorem test_t5_reset_kind :
    after (exec (.reset 0) (answering [0x00, 0xFF, 0x00])) (fun t =>
      (t.session 0).result.kind == some .communication && (t.session 0).result.cause == some .statusFailure) = true := by
  decide
theorem test_t5_reset_ok :
    after (exec (.reset 0) (answering [0x00, 0x00, 0x00])) (fun t => (t.session 0).result.rbyte == 1) = true := by
  decide
theorem test_t6_present_second_channel :
    after (exec (.isPresent 0 addrB) (onChannel1 cfg [[0x00, 0x00, 0x01, 0x00], [], [0x01, 0x00, 0x01, 0x01]]))
      (fun t => (t.session 0).result.rbool && t.cursor == 0) = true := by decide
theorem test_t6_present_error_counts_as_empty :
    after (exec (.isPresent 0 addrB) (onChannel1 cfgSoft [[0x00, 0x00, 0x01], [], [0x01, 0x00, 0x01, 0x01]]))
      (fun t => (t.session 0).result.rbool && t.ready == [false, true, false] && t.log.length == 1) = true := by
  decide
theorem test_t7_select_flag_two_is_false :
    after (exec (.select 0 addrB) (answering [0x00, 0x00, 0x01, 0x02]))
      (fun t => !(t.session 0).result.rbool && (t.session 0).result.status == .ok) = true := by decide
theorem test_r2_probe_overwrites_the_table :
    after (exec (.adapterDetected 0) (withArrivals cfg [[0x00, 0x00, 0x00], [], [0x02, 0xFF, 0x00]]))
      (fun t => t.ready == [true, false, false] && (t.session 0).result.rbool && t.log.length == 3) = true := by
  decide
theorem test_r3_filter_downgrades_and_goes_on :
    after (exec (.targetFamily 0 0x28) (withArrivals cfg [[], [0x01, 0xFF, 0x00]]))
      (fun t => t.ready == [false, true, false] && t.log.map (fun r => r.outcome) ==
        [.err .shortHeader 0, .err .statusFailure 0xFF00, .skipped]) = true := by decide
theorem test_r7_select_port_fails :
    after (exec (.selectPort 0 9) (silent.setTr { silent.tr with connAns := [false] }))
      (fun t => (t.session 0).result.kind == some .connection && (t.session 0).result.cause == some .connectFail) =
      true := by decide
theorem test_s2_find_first_on_second_channel :
    after (exec (.findFirstDevice 0) (withArrivals cfg [[], [0x01, 0x00, 0x00], [], [0x01, 0x00, 0x01, 0x01], [],
      [0x01, 0x00, 0x08, 0x28, 0xFF, 0x10, 0x00, 0x93, 0x16, 0x04, 0x7E]]))
      (fun t => t.cursor == 1 && t.sstate == .found && t.lastAddr == addrB && t.ready == [false, true, false]) = true := by
  decide
theorem test_s4_find_next_from_unready_cursor :
    after (exec (.findNextDevice 0) ((withArrivals cfg [[0x01, 0x00, 0x01, 0x01], [],
      [0x01, 0x00, 0x08, 0x28, 0xFF, 0x10, 0x00, 0x93, 0x16, 0x04, 0x7E]]).setReady 0 false))
      (fun t => t.cursor == 1 && t.sstate == .found && t.lastAddr == addrB && t.addrValid) = true := by decide
theorem test_s2_get_address :
    after (exec (.getAddress 0 8) ((State.resetWith cfg).setAddr addrB))
      (fun t => memRead t 8 8 == [0x28, 0xFF, 0x10, 0x00, 0x93, 0x16, 0x04, 0x7E]) = true := by decide
theorem test_a1_reentrant :
    after (exec (.beginExclusive 0 true) held) (fun t => (t.session 0).result.rbool && t.excl) = true := by decide
theorem test_a1_contender_polls :
    after (exec (.beginExclusive 2 true) held) (fun t => (t.session 2).astate == .polling && t.excl) = true := by
  decide
theorem test_a1_release :
    after (exec (.endExclusive 0) held) (fun t => !t.excl && !(t.session 0).holds) = true := by decide
theorem test_a1_other_cannot_release :
    after (exec (.endExclusive 1) held) (fun t => t.excl && (t.session 0).holds) = true := by decide
theorem test_response_ping_is_not_downgraded :
    after (exec (.respSuccess 0x00 [0x01]) (State.resetWith cfg)) (fun t => t.seq.xres == .err .lengthMismatch 1) =
      true := by decide

/-- Address byte `i` is payload byte `i` (R23, R53), for payloads of nine and of two bytes too. -/
theorem test_fetched_long : fetchedAddr 0 0 [1, 2, 3, 4, 5, 6, 7, 8, 9] = ⟨1, 2, 3, 4, 5, 6, 7, 8⟩ := by decide
theorem test_fetched_short : (fetchedAddr 0 0 [0x28, 0xFF]).b0 = 0x28 ∧ (fetchedAddr 0 0 [0x28, 0xFF]).b1 = 0xFF := by
  decide

/-- `RESP_LEN` is the table's (R11, D10): with GET_BYTE at two bytes, an answer of one is a length mismatch. -/
theorem test_get_byte_checks_the_table :
    after (exec (.getByte 0) (withArrivals cfgOther [[0x00, 0x00, 0x01, 0xA5]])) (fun t =>
        (t.session 0).result.cause == some .lengthMismatch &&
        (t.session 0).result.info == 0x0201) = true := by decide
/-- The transport's owner drains the stream (R314); a request makes a run not over (R335), the drain does not. -/
theorem test_owner_drains_the_stream :
    after (step (poisonedStream.setAgenda [.streamLeft []])) (fun t => t.tr.rx == [] && t.ready == poisonedStream.ready) =
      true := by decide
theorem test_run_over_needs_every_result :
    runOver (poisonedStream.setAgenda [.arrive [0x01], .request (requestOf 12)]) = false := by decide

/-! The step, from reset with a table word placed. -/

theorem test_step_host_word :
    after (step (State.reset.withFetchWord 8 0x0B)) (fun t => (t.session 0).result.status == .skipped) = true := by
  decide
theorem test_step_request_word :
    after (step (State.reset.withFetchWord 32 0xDD000D01)) (fun t => t.seq.xres == .skipped) = true := by decide
theorem test_step_waits_at_reset :
    after (step State.reset) (fun t => t.agenda.isEmpty && !t.seq.busy) = true := by decide

/-- T-H10: the arbiter takes endExclusive while the sequencer is busy, and the frame is still to be sent. -/
theorem test_h10_arbiter_while_busy :
    after (step (((held.setSeq { held.seq with phase := .tx, busy := true }).setAgenda
      [.request { requestOf 21 with sid := 0 }]))) (fun t =>
        !t.excl && t.agenda.isEmpty && t.seq.phase == .tx && (t.session 0).result.status == .ok) = true := by decide
/-- R96: a routed request waits while the sequencer is busy, which sends its frame. -/
theorem test_routed_waits_while_busy :
    after (step (((silent.setSeq { silent.seq with phase := .tx, busy := true, txbuf := [0xDD, 0x00, 0x0C, 0x00] }).setAgenda
      [.request (requestOf 11)]))) (fun t => t.agenda.length == 1 && framesSent silent t == [[0xDD, 0x00, 0x0C, 0x00]]) =
      true := by decide

/-! For each obligation with hypotheses, a state and operands that meet all of them together (`witness_<its name>`). -/

/-- A state whose next host request is `r`. -/
def asked (s : State) (r : HostRequest) : State := s.setAgenda [.request r]

/-- A state with a frame in `txbuf`, about to be sent. -/
def sending (s : State) (bytes : List Byte) : State := s.setSeq { s.seq with phase := .tx, busy := true, txbuf := bytes }

/-- A frame about to be sent while the host request `r` stands at the head, session 0 holding the token. -/
def busyAsked (r : HostRequest) : State := asked (sending held [0xDD, 0x00, 0x0C, 0x00]) r

/-- A state with a response in `rxhdr` and `rxpay`, about to be checked. -/
def checking (s : State) (bytes : List Byte) : State :=
  s.setSeq { s.seq with phase := .check, busy := true, rxhdr := bytes.take 3, rxpay := bytes.drop 3 }

/-- Session 2 polls for the token that session 0 holds. -/
def contended : State := held.updSession 2 (fun e => { e with astate := .polling })

theorem every_session_of_list {p : Session → Prop} {s : State} (h : ∀ e ∈ s.sessions, p e) (h0 : p Session.initial)
    (x : Nat) : p (s.session x) := by
  rw [State.session, List.getD_eq_getElem?_getD]
  cases hx : s.sessions[x]? with
  | none => exact h0
  | some e => exact h e (List.mem_of_getElem? hx)

theorem witness_ResetLeavesTheStatedValues :
    (∃ s0 : State, s0.cfg = cfg ∧ resetCore held = resetCore s0) ∧ (resetCore held).agenda = [] :=
  ⟨⟨held, rfl, rfl⟩, rfl⟩
theorem witness_ResetSatisfiesInvariant : cfg.Wf ∧ cfgSoft.Wf ∧ Config.opcRef.setPowerNormal = 0x0E := by decide

/-- The invariant holds in a state with a holder and a poller. -/
theorem inv_contended : Inv contended where
  cfgWf := by decide
  bufWf := by decide
  bufIn := by decide
  readyLen := by decide
  sessionsLen := by decide
  cursorIn := by decide
  oneHolder := by
    have h : ∀ x, (contended.session x).holds = true → x = 0 := by
      intro x
      rcases x with _ | _ | _ | x
      · simp
      · decide
      · decide
      · simp [contended, held, State.session, State.updSession, State.setExcl, State.resetWith, cfg, Session.initial]
    exact fun a b ha hb => (h a ha).trans (h b hb).symm
  holderExcl := fun _ _ => by decide
  notSearching := by decide
  foundValid := by decide
  pollerHoldsNot := every_session_of_list (p := fun e => e.astate = .polling → e.holds = false) (by decide) (by decide)
  busyPhase := by decide

theorem inv_contended_ask (a : List Event) : Inv (contended.setAgenda a) :=
  { inv_contended with }

theorem witness_StepKeepsInvariant :
    Inv (contended.setAgenda [.attempt 2]) ∧ ∃ t, step (contended.setAgenda [.attempt 2]) = .next t :=
  ⟨inv_contended_ask _, _, rfl⟩
theorem witness_ResetInputNeedsQuiescence_quiescent :
    (held.setAgenda [.resetInput]).seq.phase = .idle ∧ (held.setAgenda [.resetInput]).agenda = [.resetInput] ∧
      (held.setAgenda [.resetInput]).seq.busy = false ∧
      ∀ x, ((held.setAgenda [.resetInput]).session x).astate = .idle :=
  ⟨rfl, rfl, rfl, every_session_of_list (p := fun e => e.astate = .idle) (by decide) rfl⟩
theorem witness_ResetInputNeedsQuiescence_polling :
    ((contended.setAgenda [.resetInput]).session 2).astate = .polling ∧
      ((sending held []).setAgenda [.resetInput]).seq.busy = true := by decide
theorem witness_StepRunsDecodedInstruction_host :
    (asked held (requestOf 14)).seq.phase = .idle ∧
      decode cfg (.host (requestOf 14)) = .ok (.dataBlock 1 16 4) ∧ wellFormed cfg (.dataBlock 1 16 4) = true ∧
      ((asked held (requestOf 14)).session 1).astate = .idle ∧ (asked held (requestOf 14)).seq.busy = false := by
  decide
theorem witness_StepRunsDecodedInstruction_arbiter :
    (busyAsked (requestOf 21)).agenda = [.request (requestOf 21)] ∧ (busyAsked (requestOf 21)).seq.phase = .tx ∧
      decode cfg (.host (requestOf 21)) = .ok (.endExclusive 1) ∧ wellFormed cfg (.endExclusive 1) = true ∧
      ((busyAsked (requestOf 21)).session 1).astate = .idle ∧ isArbiterOp (.endExclusive 1) = true := by decide
theorem witness_StepRunsDecodedInstruction_request :
    (sending held [0xDD, 0x00, 0x0C, 0x00]).seq.phase = .tx ∧
      SequencersTurn (sending held [0xDD, 0x00, 0x0C, 0x00]) [] ∧
      SequencersTurn ((sending held [0xDD, 0x00, 0x0C, 0x00]).setAgenda [.sequencer, .attempt 2]) [.attempt 2] ∧
      decode cfg (.request (sending held [0xDD, 0x00, 0x0C, 0x00]).seq.txbuf) = .ok (.cmdReset 0x00) :=
  ⟨rfl, .inl ⟨rfl, rfl⟩, .inr (.inl rfl), by decide⟩
theorem witness_StepRunsDecodedInstruction_waiting :
    SequencersTurn (busyAsked (requestOf 11)) [.request (requestOf 11)] :=
  .inr (.inr ⟨_, _, rfl, by decide, rfl⟩)
theorem witness_StepRunsDecodedInstruction_response :
    (checking held [0x00, 0x00, 0x01, 0xA5]).seq.phase = .check ∧
      SequencersTurn (checking held [0x00, 0x00, 0x01, 0xA5]) [] ∧ decode cfg (.response
      ((checking held [0x00, 0x00, 0x01, 0xA5]).seq.rxhdr ++ (checking held [0x00, 0x00, 0x01, 0xA5]).seq.rxpay)) =
        .ok (.respSuccess 0x00 [0xA5]) := ⟨rfl, .inl ⟨rfl, rfl⟩, by decide⟩
theorem witness_IllegalRequestsHaveNoEffect_reserved :
    (asked held (requestOf 22)).seq.phase = .idle ∧ ((asked held (requestOf 22)).session 1).astate = .idle ∧
      22 ≤ (requestOf 22).op.toNat ∧ 22 ≤ (requestOf 31).op.toNat := by decide
theorem witness_IllegalRequestsHaveNoEffect_address :
    (asked held { requestOf 5 with off := 249 }).seq.phase = .idle ∧
      ((asked held { requestOf 5 with off := 249 }).session 1).astate = .idle ∧
      2 ^ held.cfg.bufAw < ({ requestOf 5 with off := 249 } : HostRequest).off + 8 :=
  ⟨rfl, rfl, by show 256 < 257; omega⟩
theorem witness_IllegalRequestsHaveNoEffect_block :
    (asked held { requestOf 14 with off := 253 }).seq.phase = .idle ∧
      ((asked held { requestOf 14 with off := 253 }).session 1).astate = .idle ∧
      2 ^ held.cfg.bufAw < ({ requestOf 14 with off := 253 } : HostRequest).off + (requestOf 14).len8.toNat :=
  ⟨rfl, rfl, by show 256 < 257; omega⟩
/-- A frame about to be sent while a host request of session 1 and a poller's attempt wait. -/
def sendingContended (op : BitVec 5) : State :=
  (sending contended [0xDD, 0x00, 0x0C, 0x00]).setAgenda [.request (requestOf op), .attempt 2]

theorem witness_RoutedRequestsWaitWhileBusy :
    Inv (sendingContended 11) ∧ (sendingContended 11).seq.busy = true ∧ (requestOf 11).op ≠ 20 ∧
      (requestOf 11).op ≠ 21 ∧ ∃ t, step (sendingContended 11) = .next t :=
  ⟨{ inv_contended with busyPhase := by decide }, rfl, by decide, by decide, _, rfl⟩
theorem witness_RoutedRequestsWaitWhileBusy_arbiter :
    Inv (sendingContended 20) ∧ (sendingContended 20).seq.busy = true ∧ (requestOf 20).op = 20 ∧
      (requestOf 20).sid < (sendingContended 20).cfg.nSessions ∧
      ((sendingContended 20).session (requestOf 20).sid).astate = .idle :=
  ⟨{ inv_contended with busyPhase := by decide }, rfl, rfl, by decide, by decide⟩
theorem witness_DecodeEncodeAgree :
    cfg.Wf ∧ wellFormed cfg (.dataBlock 2 255 1) = true ∧ wellFormed cfg (.cmdSearchRom 0x02 addrB) = true ∧
      wellFormed cfg (.respOther 0xFF 0x5A [0x00]) = true := by decide
theorem witness_DecodedWordsAreEncodings :
    decode cfg (.request [0xDD, 0x00, 0x0D, 0x01, 0xCC, 0xDD]) = .ok (.cmdPutByte 0x00 0xCC) ∧
      decode cfg (.response [0x00, 0x5A, 0x00, 0x07]) = .ok (.respOther 0x00 0x5A []) ∧
      decode cfg (.host { requestOf 9 with val8 := 0xFF }) = .ok (.putBit 1 true) := by decide
theorem witness_FrameCodecRoundTrip : (List.replicate 255 (0xDD : Byte)).length ≤ 255 := by
  simp only [List.length_replicate]; exact Nat.le_refl _

/-! The wire commands. -/

theorem witness_PingCommandCompletes :
    cfg.Wf ∧ wellFormed cfg (.cmdPingChannel 0x02) = true ∧ ([] : List Byte).length = cfg.respLen.pingChannel.toNat ∧
      (answering [0x02, 0x00, 0x00]).readyAt 2 = false ∧
      Answers (answering [0x02, 0x00, 0x00]) (encodeResponse 0x02 cfg.stSuccess []) := by decide
theorem witness_EmptyPayloadCommandsComplete :
    cfg.Wf ∧ wellFormed cfg (.cmdGetAddress 0x01) = true ∧
      (answering [1, 0, 8, 1, 2, 3, 4, 5, 6, 7, 8]).readyAt 1 = true ∧
      [1, 2, 3, 4, 5, 6, 7, (8 : Byte)].length = (cfg.respLen.get .getAddress).toNat ∧
      Answers (answering [1, 0, 8, 1, 2, 3, 4, 5, 6, 7, 8])
        (encodeResponse 0x01 cfg.stSuccess [1, 2, 3, 4, 5, 6, 7, 8]) := by decide
theorem witness_OneByteCommandsComplete :
    cfg.Wf ∧ wellFormed cfg (.cmdGetBlock 0x00 0x02) = true ∧ (answering [0, 0, 2, 7, 8]).readyAt 0 = true ∧
      [7, (8 : Byte)].length = (0x02 : Byte).toNat ∧
      Answers (answering [0, 0, 2, 7, 8]) (encodeResponse 0x00 cfg.stSuccess [7, 8]) := by decide
theorem witness_BlockAndAddressCommandsComplete :
    cfg.Wf ∧ wellFormed cfg (.cmdDataBlock 0x00 [0xAA, 0x55]) = true ∧ (answering [0, 0, 2, 7, 8]).readyAt 0 = true ∧
      [7, (8 : Byte)].length = [0xAA, (0x55 : Byte)].length ∧
      Answers (answering [0, 0, 2, 7, 8]) (encodeResponse 0x00 cfg.stSuccess [7, 8]) := by decide
theorem witness_CommandsToUnreadyChannelsAreSkipped :
    Instr.cmdReset 0x02 ∈ [Instr.cmdReset 0x02] ∧ silent.readyAt (0x02 : Byte).toNat = false := by decide
theorem witness_SetPowerNormalIsNeverSent :
    silent.cfg.Wf ∧ after (exec (.putByte 0 0x0E) silent)
      (fun t => decide ([0xDD, 0x00, 0x0D, 0x01, 0x0E] ∈ framesSent silent t)) = true := by decide
theorem witness_ResponsesAreValidated :
    cfg.Wf ∧ (0x01 : Byte) ≠ (State.resetWith cfg).seq.xch ∧ [(0x07 : Byte)].length ≠ (State.resetWith cfg).seq.xlen ∧
      ([] : List Byte).length = (State.resetWith cfg).seq.xlen ∧
      (held.loadFrame 0x00 .getByte 1 []).seq.xcmd ≠ .pingChannel ∧
      wellFormed cfg (.respOther 0x00 0x01 []) = true := by decide

/-! The transfers. -/

theorem witness_PutBitCompletes :
    cfg.Wf ∧ Accepted (answering [0, 0, 1, 1]) (.putBit 2 true) 2 ∧
      (answering [0, 0, 1, 1]).readyAt (answering [0, 0, 1, 1]).cursor = true ∧
      [(1 : Byte)].length = cfg.respLen.putBit.toNat ∧
      Answers (answering [0, 0, 1, 1]) (encodeResponse (byteOf 0) cfg.stSuccess [1]) := by decide
theorem witness_GetBitCompletes :
    cfg.Wf ∧ Accepted (answering [0, 0, 1, 0x80]) (.getBit 0) 0 ∧
      (answering [0, 0, 1, 0x80]).readyAt (answering [0, 0, 1, 0x80]).cursor = true ∧
      [(0x80 : Byte)].length = cfg.respLen.putBit.toNat ∧
      Answers (answering [0, 0, 1, 0x80]) (encodeResponse (byteOf 0) cfg.stSuccess [0x80]) := by decide
theorem witness_GetByteCompletes_other_length :
    cfgOther.Wf ∧ [0x11, (0x22 : Byte)].length = cfgOther.respLen.getByte.toNat ∧
      Answers (withArrivals cfgOther [[0, 0, 2, 0x11, 0x22]])
        (encodeResponse (byteOf 0) cfgOther.stSuccess [0x11, 0x22]) := by decide
theorem witness_PutByteCompletes :
    cfg.Wf ∧ Accepted (answering [0, 0, 0]) (.putByte 0 0xCC) 0 ∧
      (answering [0, 0, 0]).readyAt (answering [0, 0, 0]).cursor = true ∧
      ([] : List Byte).length = cfg.respLen.putByte.toNat ∧
      Answers (answering [0, 0, 0]) (encodeResponse (byteOf 0) cfg.stSuccess []) := by decide
theorem witness_GetByteCompletes :
    cfg.Wf ∧ Accepted (answering [0, 0, 1, 0xA5]) (.getByte 0) 0 ∧
      (answering [0, 0, 1, 0xA5]).readyAt (answering [0, 0, 1, 0xA5]).cursor = true ∧
      [(0xA5 : Byte)].length = cfg.respLen.getByte.toNat ∧
      Answers (answering [0, 0, 1, 0xA5]) (encodeResponse (byteOf 0) cfg.stSuccess [0xA5]) := by decide
theorem witness_GetBlockCompletes :
    cfg.Wf ∧ Accepted (answering [0, 0, 2, 7, 8]) (.getBlock 0 2) 0 ∧ [7, (8 : Byte)].length = (2 : Byte).toNat ∧
      (answering [0, 0, 2, 7, 8]).readyAt (answering [0, 0, 2, 7, 8]).cursor = true ∧
      Answers (answering [0, 0, 2, 7, 8]) ([byteOf 0, cfg.stSuccess, 2] ++ [7, 8]) := by decide
theorem witness_GetBlockCompletes_empty :
    cfg.Wf ∧ Accepted (answering [0, 0, 0]) (.getBlock 0 0) 0 ∧ (answering [0, 0, 0]).readyAt 0 = true ∧ ([] : List Byte).length = (0 : Byte).toNat ∧
      Answers (answering [0, 0, 0]) ([byteOf 0, cfg.stSuccess, 0] ++ []) := by decide
theorem witness_DataBlockCompletes :
    cfg.Wf ∧ Memory.wf (answering [0, 0, 2, 7, 8]).buf = true ∧ Accepted (answering [0, 0, 2, 7, 8]) (.dataBlock 0 254 2) 0 ∧
      (answering [0, 0, 2, 7, 8]).readyAt (answering [0, 0, 2, 7, 8]).cursor = true ∧
      [7, (8 : Byte)].length = (2 : Byte).toNat ∧
      Answers (answering [0, 0, 2, 7, 8]) ([byteOf 0, cfg.stSuccess, 2] ++ [7, 8]) := by decide
theorem witness_ResetCompletes :
    cfg.Wf ∧ Accepted (answering [0, 0, 0]) (.reset 0) 0 ∧ ([] : List Byte).length = cfg.respLen.reset.toNat ∧
      (answering [0, 0, 0]).readyAt (answering [0, 0, 0]).cursor = true ∧
      Answers (answering [0, 0, 0]) (encodeResponse (byteOf 0) cfg.stSuccess []) := by decide
theorem witness_SelectCompletes :
    cfg.Wf ∧ Accepted (answering [0, 0, 1, 2]) (.select 0 addrB) 0 ∧
      (answering [0, 0, 1, 2]).readyAt (answering [0, 0, 1, 2]).cursor = true ∧
      [(2 : Byte)].length = cfg.respLen.matchRom.toNat ∧
      Answers (answering [0, 0, 1, 2]) (encodeResponse (byteOf 0) cfg.stSuccess [2]) := by decide
theorem witness_TransfersSkipUnreadyChannel :
    Accepted held (.dataBlock 0 255 1) 0 ∧ Accepted held (.getBit 2) 2 ∧ held.readyAt held.cursor = false := by decide
theorem witness_TransferFailuresAreSurfaced_cause :
    Accepted silent (.dataBlock 0 254 2) 0 ∧ silent.readyAt silent.cursor = true ∧
      (Cause.shortHeader, ErrKind.communication) ∈ exchangeCauses ∧
      exchangeCh silent.cursor .dataBlock (memRead silent 254 (2 : Byte).toNat) (2 : Byte).toNat silent =
        (.err .shortHeader 0,
          (exchangeCh silent.cursor .dataBlock (memRead silent 254 (2 : Byte).toNat) (2 : Byte).toNat silent).2) :=
  ⟨by decide, by decide, by decide, Prod.ext (by decide) rfl⟩
theorem witness_TransferFailuresAreSurfaced_status :
    cfg.Wf ∧ Accepted (answering [0, 0xFF, 1, 9]) (.dataBlock 0 16 2) 0 ∧
      (answering [0, 0xFF, 1, 9]).readyAt (answering [0, 0xFF, 1, 9]).cursor = true ∧ [(9 : Byte)].length ≤ 255 ∧
      Answers (answering [0, 0xFF, 1, 9]) (encodeResponse (byteOf 0) cfg.stFailure [9]) ∧
      Answers (answering [0, 0x7F, 1, 9]) (encodeResponse (byteOf 0) 0x7F [9]) ∧ (0x7F : Byte) ≠ cfg.stFailure ∧
      (0x7F : Byte) ≠ cfg.stSuccess := by decide
theorem witness_TransferFailuresAreSurfaced_channel_and_length :
    Accepted (answering [1, 0, 1, 9]) (.getByte 0) 0 ∧ (1 : Byte) ≠ byteOf (answering [1, 0, 1, 9]).cursor ∧
      Answers (answering [1, 0, 1, 9]) (encodeResponse 1 cfg.stSuccess [9]) ∧
      Answers (answering [0, 0, 0]) (encodeResponse (byteOf 0) cfg.stSuccess []) ∧
      ([] : List Byte).length ≠ cfg.respLen.getByte.toNat := by decide
theorem witness_SilenceIsSurfacedAndDowngrades :
    Accepted silent (.reset 0) 0 ∧ silent.readyAt silent.cursor = true ∧ StaysSilent silent ∧
      silent.cfg.downgrade = true := by decide
theorem witness_WriteFailureReadsNothing :
    Accepted broken (.getByte 0) 0 ∧ broken.readyAt broken.cursor = true ∧ WriteWillFail broken := by decide
/-- A link whose next write succeeds and whose next flush fails. -/
def stuck : State := silent.setTr { silent.tr with flushAns := [false] }

theorem witness_WriteFailureReadsNothing_flush :
    Accepted stuck (.dataBlock 0 254 2) 0 ∧ stuck.readyAt stuck.cursor = true ∧
      stuck.tr.writeAns.head? = some true ∧ stuck.tr.flushAns.head? = some false := by decide
theorem witness_ResetReportsCommunicationErrors :
    Accepted (answering [1, 0, 0]) (.reset 0) 0 ∧
      (answering [1, 0, 0]).readyAt (answering [1, 0, 0]).cursor = true ∧
      (Cause.channelMismatch, ErrKind.protocol) ∈ exchangeCauses ∧
      exchangeCh (answering [1, 0, 0]).cursor .reset [] cfg.respLen.reset.toNat (answering [1, 0, 0]) =
        (.err .channelMismatch 0x0001,
          (exchangeCh (answering [1, 0, 0]).cursor .reset [] cfg.respLen.reset.toNat (answering [1, 0, 0])).2) ∧
      after (exec (.reset 0) (answering [1, 0, 0])) (fun t => (t.session 0).result.status == .err) = true :=
  ⟨by decide, by decide, by decide, Prod.ext (by decide) rfl, by decide⟩
theorem witness_PresenceErrorsFollowThePolicy_select :
    cfg.Wf ∧ cfgSoft.Wf ∧ (answering [0, 0xFF, 0]).ready.length = cfg.maxChannels ∧ Accepted (answering [0, 0xFF, 0]) (.select 0 addrB) 0 ∧
      (answering [0, 0xFF, 0]).readyAt (answering [0, 0xFF, 0]).cursor = true ∧
      Answers (answering [0, 0xFF, 0]) [byteOf 0, cfg.stFailure, 0] ∧ cfg.presencePolicy = .raise ∧
      cfgSoft.presencePolicy = .asNotFound := by decide
/-- A device on channel 0, the only one ready, that answers with the failure status. -/
def refusing : State := (withArrivals cfgSoft [[0, 0xFF, 0]]).setReady 1 false

theorem witness_PresenceErrorsFollowThePolicy_isPresent :
    refusing.cfg.Wf ∧ refusing.ready.length = refusing.cfg.maxChannels ∧ Accepted refusing (.isPresent 0 addrB) 0 ∧
      refusing.readyAt refusing.cursor = true ∧ Answers refusing [byteOf refusing.cursor, cfgSoft.stFailure, 0] ∧
      ∀ x, x ≠ refusing.cursor → refusing.readyAt x = false := by
  refine ⟨by decide, by decide, by decide, by decide, by decide, fun x hx => ?_⟩
  rcases x with _ | _ | _ | x
  · exact absurd rfl hx
  · decide
  · decide
  · rfl

theorem witness_PresenceFailuresOfEveryCause_select :
    cfg.Wf ∧ silent.readyAt silent.cursor = true ∧ Accepted silent (.select 0 addrB) 0 ∧
      exchangeCh silent.cursor .matchRom (addrBytes addrB) cfg.respLen.matchRom.toNat silent =
        (.err .shortHeader 0,
          (exchangeCh silent.cursor .matchRom (addrBytes addrB) cfg.respLen.matchRom.toNat silent).2) :=
  ⟨by decide, by decide, by decide, Prod.ext (by decide) rfl⟩
/-- Channel 0 gives no answer and channel 1, the next one ready, the flag byte, under `AsNotFound`. -/
def secondMatches : State := withArrivals cfgSoft [[], [1, 0, 1, 1]]

/-- What the exchange with channel 0 leaves of it. -/
def secondMatchesAfter : State :=
  (exchangeCh 0 .searchRom (addrBytes addrB) cfgSoft.respLen.searchRom.toNat secondMatches).2

theorem witness_PresenceFailuresOfEveryCause_isPresent :
    secondMatches.readyAt 0 = true ∧ Accepted secondMatches (.isPresent 0 addrB) 0 ∧
      0 < secondMatches.cfg.maxChannels ∧
      exchangeCh 0 .searchRom (addrBytes addrB) cfgSoft.respLen.searchRom.toNat secondMatches =
        (.err .shortHeader 0, secondMatchesAfter) ∧
      secondMatches.cfg.presencePolicy = .asNotFound ∧ secondMatches.readyAt 1 = true ∧
      secondMatches.cfg.respLen.searchRom = 1 ∧
      Answers secondMatchesAfter [byteOf 1, cfgSoft.stSuccess, 1, cfgSoft.flagByte] :=
  ⟨by decide, by decide, by decide, Prod.ext (by decide) rfl, by decide, by decide, by decide, by decide⟩
theorem witness_PresenceFailuresOfEveryCause_only :
    refusing.readyAt 0 = true ∧ Accepted refusing (.isPresent 0 addrB) 0 ∧
      (exchangeCh 0 .searchRom (addrBytes addrB) cfgSoft.respLen.searchRom.toNat refusing).1 =
        .err .statusFailure 0xFF00 ∧ ∀ x, 0 < x → refusing.readyAt x = false := by
  refine ⟨by decide, by decide, by decide, fun x hx => ?_⟩
  rcases x with _ | _ | _ | x
  · exact absurd hx (by decide)
  · decide
  · decide
  · rfl

/-- Channels 0 and 1 are ready and answer with these flags. -/
def flagged (f0 f1 : Byte) : State := answering [0, 0, 1, f0, 1, 0, 1, f1]

theorem witness_IsPresentFindsMatch :
    cfg.Wf ∧ Accepted (flagged 0 1) (.isPresent 0 addrB) 0 ∧ cfg.respLen.searchRom = 1 ∧ 2 ≤ cfg.maxChannels ∧
      (∀ x, x + 1 < 2 → (if x = 0 then (0 : Byte) else 1) ≠ cfg.flagByte) ∧ (flagged 0 1).readyAt 1 = true ∧
      (1 : Byte) = cfg.flagByte ∧ AnswersInTurn (flagged 0 1) ((List.range 2).filter (flagged 0 1).readyAt).length
        (((List.range 2).filter (flagged 0 1).readyAt).flatMap
          (fun x => [byteOf x, cfg.stSuccess, 1, if x = 0 then 0 else 1])) := by
  refine ⟨by decide, by decide, by decide, by decide, fun x hx => ?_, by decide, by decide, by decide⟩
  rw [if_pos (by omega)]
  decide
theorem witness_IsPresentFindsMatch_none :
    Accepted (flagged 0 2) (.isPresent 0 addrB) 0 ∧ (0 : Byte) ≠ cfg.flagByte ∧ (2 : Byte) ≠ cfg.flagByte ∧
      AnswersInTurn (flagged 0 2) ((List.range cfg.maxChannels).filter (flagged 0 2).readyAt).length
        (((List.range cfg.maxChannels).filter (flagged 0 2).readyAt).flatMap
          (fun x => [byteOf x, cfg.stSuccess, 1, if x = 0 then 0 else 2])) := by decide
theorem witness_IsPresentAlwaysResetsCursor :
    Accepted held (.isPresent 0 addrB) 0 ∧ ∀ x, held.readyAt x = false := by
  refine ⟨by decide, fun x => ?_⟩
  rcases x with _ | _ | _ | x <;> rfl

/-! The router, the search and the arbiter. -/

theorem witness_SelectPortReportsTheVerdict :
    Accepted silent (.selectPort 0 9) 0 ∧
      (silent.setTr { silent.tr with connAns := [false] }).tr.connAns.head? = some false := by decide
theorem witness_FreePortInvalidatesTheSearch : Accepted silent (.freePort 2 9) 2 := by decide
theorem witness_AdapterDetectedProbesEverySlot :
    Accepted silent (.adapterDetected 0) 0 ∧ silent.ready.length = silent.cfg.maxChannels := by decide
theorem witness_FilterOperationsBroadcast :
    Accepted silent (.targetFamily 0 0x28) 0 ∧ Accepted silent (.setSearchAllDevices 1) 1 := by decide
/-- Channel 0 answers and channel 1 does not; channel 2 is not ready. -/
def halfSilent : State := withArrivals cfg [[0, 0, 0], []]

theorem witness_FilterOperationsBroadcast_each_channel :
    Accepted halfSilent (.targetFamily 0 0x28) 0 ∧ 0 = (halfSilent.cfg.respLen.get .targetFamily).toNat ∧
      halfSilent.readyAt 0 = true ∧ halfSilent.readyAt 1 = true ∧ halfSilent.readyAt 2 = false ∧
      halfSilent.cfg.downgrade = true ∧
      answerOf halfSilent.readyAt .targetFamily [0x28] 0 halfSilent 0 = .ok [] ∧
      answerOf halfSilent.readyAt .targetFamily [0x28] 0 halfSilent 1 = .err .shortHeader 0 := by decide
theorem witness_FindFirstDeviceOutcome :
    1 ≤ silent.cfg.maxChannels ∧ silent.ready.length = silent.cfg.maxChannels ∧ Accepted silent (.findFirstDevice 0) 0 := by
  decide
/-- A device that answers every ping, with SUCCESS on channel 1 alone, and then reports the address there. -/
def foundOn1 : State :=
  answering [0, 0xFF, 0, 1, 0, 0, 2, 0xFF, 0, 1, 0, 1, 1, 1, 0, 8, 0x28, 0xFF, 0x10, 0x00, 0x93, 0x16, 0x04, 0x7E]

theorem witness_FindFirstDeviceRecordsTheFind :
    foundOn1.cfg.Wf ∧ foundOn1.ready.length = foundOn1.cfg.maxChannels ∧ Accepted foundOn1 (.findFirstDevice 0) 0 ∧
      1 < foundOn1.cfg.maxChannels ∧ (∀ x, x < 1 → (x == 1) = false) ∧
      ([] : List Byte).length = foundOn1.cfg.respLen.pingChannel.toNat ∧ foundOn1.cfg.respLen.findFirst = 1 ∧
      (addrBytes addrB).length = foundOn1.cfg.respLen.getAddress.toNat ∧
      AnswersInTurn foundOn1 (foundOn1.cfg.maxChannels + 2)
        ((List.range foundOn1.cfg.maxChannels).flatMap (fun x =>
            if x == 1 then encodeResponse (byteOf x) cfg.stSuccess [] else encodeResponse (byteOf x) cfg.stFailure []) ++
          ([byteOf 1, cfg.stSuccess, 1, cfg.flagByte] ++
            encodeResponse (byteOf 1) cfg.stSuccess (addrBytes addrB))) := by decide
theorem witness_FindNextDeviceStaysOnChannel :
    cfg.Wf ∧ Accepted (answering [0, 0, 1, 1, 0, 0, 8, 1, 2, 3, 4, 5, 6, 7, 8]) (.findNextDevice 0) 0 ∧
      (answering [0, 0, 1, 1, 0, 0, 8, 1, 2, 3, 4, 5, 6, 7, 8]).readyAt 0 = true ∧ cfg.respLen.findNext = 1 ∧
      [1, 2, 3, 4, 5, 6, 7, (8 : Byte)].length = cfg.respLen.getAddress.toNat ∧
      AnswersTwice (answering [0, 0, 1, 1, 0, 0, 8, 1, 2, 3, 4, 5, 6, 7, 8])
        ([byteOf 0, cfg.stSuccess, 1, cfg.flagByte] ++
          encodeResponse (byteOf 0) cfg.stSuccess [1, 2, 3, 4, 5, 6, 7, 8]) := by decide
theorem witness_FindNextDeviceStaysOnChannel_short :
    cfgShort.Wf ∧ [0x28, (0xFF : Byte)].length = cfgShort.respLen.getAddress.toNat ∧ cfgShort.respLen.findNext = 1 ∧
      AnswersTwice (withArrivals cfgShort [[0, 0, 1, 1, 0, 0, 2, 0x28, 0xFF]])
        ([byteOf 0, cfgShort.stSuccess, 1, cfgShort.flagByte] ++
          encodeResponse (byteOf 0) cfgShort.stSuccess [0x28, 0xFF]) := by decide
theorem witness_FindNextDeviceOutcome :
    (silent.setCursor 2).cursor < cfg.maxChannels ∧ Accepted (silent.setCursor 2) (.findNextDevice 0) 0 := by decide

/-- The cursor's channel 0 is not ready; channels 1 and 2 are, and channel 2 has a device. -/
def beyond : State :=
  (answering ([1, 0, 1, 0] ++ [2, 0, 1, 1] ++ encodeResponse 2 0 (addrBytes addrB))).setReady 0 false |>.setReady 2 true

theorem witness_FindNextDeviceOutcome_unready :
    beyond.cfg.Wf ∧ Accepted beyond (.findNextDevice 0) 0 ∧ FindNextMissed beyond beyond 0 [] [] ∧
      beyond.cfg.respLen.findFirst = 1 ∧ (addrBytes addrB).length = beyond.cfg.respLen.getAddress.toNat ∧
      beyond.cursor < 2 ∧ 2 < beyond.cfg.maxChannels ∧ beyond.readyAt 2 = true ∧
      [1] = (List.range' (beyond.cursor + 1) (2 - (beyond.cursor + 1))).filter beyond.readyAt ∧
      (0 : Byte) ≠ beyond.cfg.flagByte ∧
      AnswersInTurn beyond 3 ([1].flatMap (fun x => [byteOf x, beyond.cfg.stSuccess, 1, 0]) ++
        ([byteOf 2, beyond.cfg.stSuccess, 1, beyond.cfg.flagByte] ++
          encodeResponse (byteOf 2) beyond.cfg.stSuccess (addrBytes addrB))) :=
  ⟨by decide, by decide, .inl ⟨by decide, rfl, rfl, rfl⟩, by decide, by decide, by decide, by decide, by decide,
    by decide, by decide, by decide⟩

/-- FIND_NEXT on channel 0 is answered with `first`; then channel 1 has a device. -/
def nextOn1 (first : List Byte) : State := withArrivals cfg [first, [1, 0, 1, 1] ++ encodeResponse 1 0 (addrBytes addrB)]

/-- What FIND_NEXT leaves of it. -/
def afterNext (s : State) : State := (exchangeCh 0 .findNext [] cfg.respLen.findNext.toNat s).2

theorem witness_FindNextDeviceOutcome_refused :
    Accepted (nextOn1 [0, 0xFF, 0]) (.findNextDevice 0) 0 ∧
      FindNextMissed (nextOn1 [0, 0xFF, 0]) (afterNext (nextOn1 [0, 0xFF, 0])) 0 [[0xDD, 0, 0x03, 0]]
        [⟨0, .findNextDevice, 0, .findNext, .err .statusFailure 0xFF00⟩] ∧
      AnswersInTurn (afterNext (nextOn1 [0, 0xFF, 0])) 2 ([byteOf 1, cfg.stSuccess, 1, cfg.flagByte] ++
        encodeResponse (byteOf 1) cfg.stSuccess (addrBytes addrB)) :=
  ⟨by decide, .inr ⟨by decide, .inr (.inl ⟨_, _, Prod.ext (by decide) rfl, by decide, rfl⟩)⟩, by decide⟩
theorem witness_FindNextDeviceOutcome_other_flag :
    FindNextMissed (nextOn1 [0, 0, 1, 7, 9]) (afterNext (nextOn1 [0, 0, 1, 7, 9])) 0 [[0xDD, 0, 0x03, 0]] [] :=
  .inr ⟨by decide, .inl ⟨7, Prod.ext (by decide) rfl, by decide, by decide, rfl⟩⟩
/-- Channels 0 to 2 are ready: channel 0 gives the flag byte and then no address, channel 1 fails, and channel 2 gives the
flag byte and an address. -/
def lateFind : State :=
  (withArrivals cfg ([[0, 0, 1, 1, 0, 0xFF, 0, 1, 0xFF, 0, 2, 0, 1, 1, 2, 0, 8, 1, 2, 3, 4, 5, 6, 7, 8]] ++
    List.replicate 7 [])).setReady 2 true

/-- What FIND_NEXT and GET_ADDRESS on channel 0, then FIND_FIRST on channel 1, then both on channel 2 leave of it. -/
def lateFind1 : State := (exchangeCh 0 .getAddress [] 8 (exchangeCh 0 .findNext [] 1 lateFind).2).2
def lateFind2 : State := (exchangeCh 1 .findFirst [] 1 lateFind1).2
def lateFind3 : State := (exchangeCh 2 .getAddress [] 8 (exchangeCh 2 .findFirst [] 1 lateFind2).2).2

theorem witness_FindNextDeviceOutcome_address_fails :
    Accepted lateFind (.findNextDevice 0) 0 ∧
      FindNextMissed lateFind lateFind1 0 [[0xDD, 0, 0x03, 0], [0xDD, 0, 0x04, 0]]
        [⟨0, .findNextDevice, 0, .getAddress, .err .statusFailure 0xFF00⟩] :=
  ⟨by decide, .inr ⟨by decide, .inr (.inr ⟨(exchangeCh 0 .findNext [] 1 lateFind).2, _, _, Prod.ext (by decide) rfl,
    Prod.ext (by decide) rfl, by decide, rfl⟩)⟩⟩
theorem scan_of_lateFind1 :
    ScanMissed 0 .findNextDevice lateFind1 [1] lateFind2 [[0xDD, 1, 0x02, 0]]
      [⟨0, .findNextDevice, 1, .findFirst, .err .statusFailure 0xFF00⟩] :=
  ScanMissed.fails (s := lateFind1) (by decide) (by decide) (.nil _)
theorem witness_FindNextDeviceOutcome_scan_goes_on :
    [1] = List.range' (lateFind.cursor + 1) (2 - (lateFind.cursor + 1)) ∧ lateFind2.readyAt 2 = true ∧
      FindHit lateFind2 lateFind3 2 .findFirst [1, 2, 3, 4, 5, 6, 7, 8] :=
  ⟨by decide, by decide, (exchangeCh 2 .findFirst [] 1 lateFind2).2, Prod.ext (by decide) rfl, Prod.ext (by decide) rfl⟩
/-- Channel 1 alone is ready and silent: the cursor's channel sends nothing and the scan of the two after it misses. -/
theorem witness_FindNextDeviceOutcome_exhausted :
    Accepted (silent.setReady 0 false) (.findNextDevice 0) 0 ∧
      FindNextMissed (silent.setReady 0 false) (silent.setReady 0 false) 0 [] [] ∧
    [1, 2] = List.range' (silent.cursor + 1) (silent.cfg.maxChannels - (silent.cursor + 1)) ∧
      ScanMissed 0 .findNextDevice (silent.setReady 0 false) [1, 2]
        (exchangeCh 1 .findFirst [] 1 (silent.setReady 0 false)).2 [[0xDD, 1, 0x02, 0]]
        [⟨0, .findNextDevice, 1, .findFirst, .err .shortHeader 0⟩] :=
  ⟨by decide, .inl ⟨by decide, rfl, rfl, rfl⟩, by decide, ScanMissed.fails (s := silent.setReady 0 false) (by decide) (by decide)
    (.skip (s := (exchangeCh 1 .findFirst [] 1 (silent.setReady 0 false)).2) (by decide) (.nil _))⟩
/-- All three pings are answered with SUCCESS; then channel 0 fails FIND_FIRST and channel 1 has a device. -/
def probedFind : State :=
  (withArrivals cfg ([[0, 0, 0, 1, 0, 0, 2, 0, 0, 0, 0xFF, 0, 1, 0, 1, 1, 1, 0, 8, 1, 2, 3, 4, 5, 6, 7, 8]] ++
    List.replicate 7 []))

theorem witness_FindFirstDeviceOutcome_scan_goes_on :
    probedFind.ready.length = probedFind.cfg.maxChannels ∧ Accepted probedFind (.findFirstDevice 0) 0 ∧
      ScanMissed 0 .findFirstDevice (afterProbe probedFind) (List.range 1)
        (exchangeCh 0 .findFirst [] 1 (afterProbe probedFind)).2 [[0xDD, 0, 0x02, 0]]
        [⟨0, .findFirstDevice, 0, .findFirst, .err .statusFailure 0xFF00⟩] ∧
      (exchangeCh 0 .findFirst [] 1 (afterProbe probedFind)).2.readyAt 1 = true ∧
      ∃ v, FindHit (exchangeCh 0 .findFirst [] 1 (afterProbe probedFind)).2 v 1 .findFirst
        [1, 2, 3, 4, 5, 6, 7, 8] :=
  ⟨by decide, by decide, ScanMissed.fails (s := afterProbe probedFind) (by decide) (by decide) (.nil _),
    by decide, _, _, Prod.ext (by decide) rfl, Prod.ext (by decide) rfl⟩
/-- No channel answers its ping. -/
def allDown : State := withArrivals cfg [[], [], []]

theorem witness_FindFirstDeviceOutcome_exhausted :
    allDown.ready.length = allDown.cfg.maxChannels ∧ Accepted allDown (.findFirstDevice 0) 0 ∧
      ScanMissed 0 .findFirstDevice (afterProbe allDown) (List.range allDown.cfg.maxChannels) (afterProbe allDown)
        [] [] :=
  ⟨by decide, by decide, .skip (s := afterProbe allDown) (c := 0) (by decide)
    (.skip (s := afterProbe allDown) (c := 1) (by decide)
      (.skip (s := afterProbe allDown) (c := 2) (by decide) (.nil _)))⟩
theorem witness_GetAddressDelivers :
    Memory.wf silent.buf = true ∧ Accepted silent (.getAddress 0 248) 0 ∧ silent.addrValid = false ∧
      (silent.setAddr addrB).addrValid = true := by decide
theorem witness_BeginExclusiveAcquiresFreeFlag :
    wellFormed cfg (.beginExclusive 2 false) = true ∧ 2 < silent.sessions.length ∧ (silent.session 2).holds = false ∧
      silent.excl = false := by decide
theorem witness_BeginExclusiveWaitsForTakenFlag :
    wellFormed cfg (.beginExclusive 2 true) = true ∧ 2 < held.sessions.length ∧ (held.session 2).holds = false ∧
      held.excl = true := by decide
theorem witness_BeginExclusiveDoesNotNest :
    wellFormed cfg (.beginExclusive 0 true) = true ∧ 0 < held.sessions.length ∧ (held.session 0).holds = true := by
  decide
theorem witness_EndExclusiveReleasesOnlyOwnHold :
    wellFormed cfg (.endExclusive 1) = true ∧ 1 < held.sessions.length ∧ (held.session 1).holds = false ∧
      (held.session 0).holds = true := by decide
theorem witness_AtMostOneHolderInEveryRun :
    Inv contended ∧ ∃ t, Sys2Proof.core.run 2 contended = .next t ∧ (t.session 0).holds = true :=
  ⟨inv_contended, contended, rfl, rfl⟩
theorem witness_TokenGuardsNoOtherInstruction :
    isArbiterOp (.getByte 1) = false ∧ isArbiterOp (.cmdReset 0x00) = false ∧ (forgetTokens held).excl ≠ held.excl := by
  decide
theorem witness_BufferReadsBackWhatWasWritten : Memory.wf [(3, 0x07), (9, 0xFF)] = true := by decide
theorem witness_RegistersHaveOnlyTheirWriters :
    after (exec (.findFirstDevice 0) (withArrivals cfg [[], [], []])) (fun t => t.sstate != silent.sstate) = true := by
  decide
theorem witness_RegistersHaveOnlyTheirWriters_ready :
    after (exec (.adapterDetected 0) (withArrivals cfg [[], [], [2, 0, 0]]))
      (fun t => t.readyAt 2 && !silent.readyAt 2 && t.log != silent.log) = true := by decide
theorem witness_OperationsEndOnlyWithTheirKinds :
    hostOpOf (.reset 0) = some .reset ∧ sessionOf (.reset 0) = some 0 ∧ Accepted silent (.reset 0) 0 ∧
      after (exec (.reset 0) silent) (fun t => t.draws != silent.draws) = true := by decide
theorem witness_NoFrameGoesToUnreadyChannels :
    silent.ready.length ≤ 256 ∧ hostOpOf (.getByte 0) ∉ [some HostOp.adapterDetected, some .findFirstDevice] ∧
      after (exec (.getByte 0) silent) (fun t => framesSent silent t == [[0xDD, 0x00, 0x09, 0x00]]) = true := by decide
theorem witness_NoFrameGoesToUnreadyChannels_findFirst :
    foundOn1.cfg.Wf ∧ foundOn1.ready.length = foundOn1.cfg.maxChannels ∧
      after (exec (.findFirstDevice 0) foundOn1) (fun t => (framesSent foundOn1 t).drop 3 ==
        [[0xDD, 0x01, 0x02, 0x00], [0xDD, 0x01, 0x04, 0x00]]) = true := by decide
theorem witness_ReceiveStreamIsNeverResynchronised :
    after (exec (.getByte 0) (answering [0xEE, 0x00, 0x00, 0x09])) (fun t => t.tr.rx == [0x09]) = true := by decide
/-- A stale answer of channel 0 in the stream, the true one on its way. -/
def poisoned : State :=
  (withArrivals cfg [[0, 0, 1, 0x22], []]).setTr
    { (withArrivals cfg [[0, 0, 1, 0x22], []]).tr with rx := [0, 0, 1, 0x11] }

theorem witness_StaleAnswerIsDeliveredAsResult :
    poisoned.cfg.Wf ∧ Accepted poisoned (.getByte 0) 0 ∧ poisoned.readyAt poisoned.cursor = true ∧
      poisoned.tr.writeAns.head? = some true ∧ poisoned.tr.flushAns.head? = some true ∧
      [(0x11 : Byte)].length = poisoned.cfg.respLen.getByte.toNat ∧
      poisoned.tr.rx = encodeResponse (byteOf poisoned.cursor) cfg.stSuccess [0x11] ∧
      poisoned.tr.arrivals.take 2 = [[byteOf poisoned.cursor, cfg.stSuccess, 1, 0x22], []] := by decide
/-- The run is over while bytes, a drained stream, a store, an attempt and a reset may still come. -/
def ended : State :=
  held.setAgenda [.arrive [0x00], .streamLeft [], .callerStore 3 0x07, .attempt 2, .resetInput]

theorem witness_EndedRunsStayEnded : runOver ended = true ∧ ∃ t, step ended = .next t := ⟨by decide, _, rfl⟩

end Sys2Proof.Tests
end

/-! Decoding what the encoder writes (30_encoding.md R80, R81, R90). Each of the three formats carries enough to be read
back: a length byte counts the payload it declares (R89), a command byte names its command because `OPC` is injective
(R10), an operation code names its operation (R91), and a status byte tells its class because `ST_SUCCESS` and
`ST_FAILURE` differ (R86). The frame laws are stated with the bytes after the frame left over (R82). -/

namespace Sys2Proof.Proofs.DecodeEncode

open Sys2Proof Sys2Proof.Machine Sys2Proof.Laws.EncodeFormat

/-! Operands: what the codec does to a count and a boolean (R87 to R89). -/

theorem byteOf_toNat {n : Nat} (h : n ≤ 255) : (byteOf n).toNat = n := by
  rw [BitVec.toNat_ofNat]
  exact Nat.mod_eq_of_lt (by omega)

@[simp] theorem val8Bit_bool8 (v : Bool) : val8Bit (bool8 v) = v := by cases v <;> rfl

@[simp] theorem bitPayload_bool8 (ch : Byte) (v : Bool) : bitPayload ch (bool8 v) = .ok (.cmdPutBit ch v) := by
  cases v <;> rfl

/-! Codes: the lookup of a code finds what it was taken from. -/

theorem mem_hostOp_all (op : HostOp) : op ∈ HostOp.all := by cases op <;> decide

theorem mem_wireCmd_all (cmd : WireCmd) : cmd ∈ WireCmd.all := by cases cmd <;> decide

theorem hostOp_codes_nodup : (HostOp.all.map HostOp.code).Nodup := by decide

/-- Where no two members of a list share a key, looking a member's key up finds that member. -/
theorem find?_key_eq {α β : Type} [BEq β] [LawfulBEq β] {l : List α} {key : α → β} (h : (l.map key).Nodup) {a : α}
    (ha : a ∈ l) : l.find? (fun x => key x == key a) = some a := by
  obtain ⟨b, hb⟩ : ∃ b, l.find? (fun x => key x == key a) = some b :=
    Option.isSome_iff_exists.1 (List.find?_isSome.2 ⟨a, ha, beq_self_eq_true _⟩)
  have hkey : key b = key a := by simpa using List.find?_some hb
  rw [hb, List.inj_on_of_nodup_map h (List.mem_of_find?_eq_some hb) ha hkey]

@[simp] theorem hostOpOfCode_code (op : HostOp) : hostOpOfCode op.code = some op :=
  find?_key_eq hostOp_codes_nodup (mem_hostOp_all op)

theorem cmdOfByte_get {c : Config} (h : (WireCmd.all.map c.opc.get).Nodup) (cmd : WireCmd) :
    cmdOfByte c (c.opc.get cmd) = some cmd :=
  find?_key_eq h (mem_wireCmd_all cmd)

/-! Frames (R110 to R113, R116). -/

theorem decodeRequest_encodeRequest_append {c : Config} {ch cmdbyte : Byte} {pay rest : List Byte}
    (h : pay.length ≤ 255) :
    decodeRequest c (encodeRequest c ch cmdbyte pay ++ rest) = .request ch cmdbyte pay rest := by
  simp [encodeRequest, decodeRequest, byteOf_toNat h, -BitVec.toNat_ofNat]

theorem decodeResponse_encodeResponse_append {ch status : Byte} {pay rest : List Byte} (h : pay.length ≤ 255) :
    decodeResponse (encodeResponse ch status pay ++ rest) = .response ch status pay rest := by
  simp [encodeResponse, decodeResponse, byteOf_toNat h, -BitVec.toNat_ofNat]

/-! The three formats as instructions. -/

/-- A command's frame decodes by the command's own payload shape (R130). -/
theorem decode_wireFrame {c : Config} (hopc : (WireCmd.all.map c.opc.get).Nodup) {ch : Byte} {cmd : WireCmd}
    {pay : List Byte} {i : Instr} (h : pay.length ≤ 255) (hi : decodeWire cmd ch pay = .ok i) :
    decode c (.request (wireFrame c ch cmd pay)) = .ok i := by
  have hframe := decodeRequest_encodeRequest_append (c := c) (ch := ch) (cmdbyte := c.opc.get cmd) (rest := []) h
  rw [List.append_nil] at hframe
  simp only [decode, decodeRequestFrame, wireFrame, hframe, cmdOfByte_get hopc, hi]

/-- A host request that carries an operation's code decodes to that operation on its own fields. -/
theorem decodeHost_code (op : HostOp) (sid : Nat) (val8 len8 : Byte) (off : Nat) (addr : DevAddr) (blocking : Bool)
    (port : Nat) :
    decodeHost ⟨sid, op.code, val8, len8, off, addr, blocking, port⟩ =
      .ok (hostInstr op ⟨sid, op.code, val8, len8, off, addr, blocking, port⟩) := by
  simp only [decodeHost, hostOpOfCode_code]

/-- A response frame decodes to the instruction of its status class (R86). -/
theorem decode_encodeResponse {c : Config} {ch status : Byte} {pay : List Byte} (h : pay.length ≤ 255) :
    decode c (.response (encodeResponse ch status pay)) =
      if status = c.stSuccess then .ok (.respSuccess ch pay)
      else if status = c.stFailure then .ok (.respFailure ch pay)
      else .ok (.respOther ch status pay) := by
  have hframe := decodeResponse_encodeResponse_append (ch := ch) (status := status) (rest := []) h
  rw [List.append_nil] at hframe
  simp only [decode, decodeResponseFrame, hframe]

/-- Settles O9: by the instruction's format. A frame's payload fits its length byte because the instruction is
well-formed; a host request needs no bound, since its operands are fields of their own. -/
theorem decodeEncodeAgree : Obligations.DecodeEncodeAgree := by
  intro c i ⟨_, _, _, _, hopc, hstatus⟩ hw
  cases i with
  | cmdPingChannel | cmdFindFirst | cmdFindNext | cmdGetAddress | cmdSetSearchOnlyAlarming | cmdSetNoResetSearch
  | cmdSetSearchAll | cmdGetByte | cmdGetBlock | cmdDataBlock | cmdReset | cmdPutByte | cmdSetPowerNormal
  | cmdTargetFamily | cmdTargetAllFamilies | cmdSearchRom | cmdMatchRom =>
    exact decode_wireFrame hopc (frame_bounds hw).1 rfl
  | cmdPutBit ch v => exact decode_wireFrame hopc (frame_bounds hw).1 (bitPayload_bool8 ch v)
  | selectPort | freePort | adapterDetected | findFirstDevice | findNextDevice | getAddress | isPresent | select | reset
  | putBit | getBit | putByte | getByte | getBlock | dataBlock | setSearchOnlyAlarmingDevices | setNoResetSearch
  | setSearchAllDevices | targetFamily | targetAllFamilies | beginExclusive | endExclusive =>
    simp only [encode, decode, blankRequest, decodeHost_code, hostInstr, val8Bit_bool8]
  | respSuccess =>
    have hlen := of_decide_eq_true hw
    exact (decode_encodeResponse hlen).trans (if_pos rfl)
  | respFailure =>
    have hlen := of_decide_eq_true hw
    exact (decode_encodeResponse hlen).trans ((if_neg hstatus.symm).trans (if_pos rfl))
  | respOther =>
    simp only [wellFormed, Bool.and_eq_true, decide_eq_true_eq] at hw
    obtain ⟨⟨hsuccess, hfailure⟩, hlen⟩ := hw
    exact (decode_encodeResponse hlen).trans ((if_neg hsuccess).trans (if_neg hfailure))

end Sys2Proof.Proofs.DecodeEncode

/-! The writer list (10_state.md R38). `Within o s t` says that whatever register differs between `s` and `t` is one that
the operation `o` may write. It holds of every named update by the row it belongs to, and it composes, so that the body of
an operation is within its rows because each of its parts is. -/

namespace Sys2Proof.Proofs.RegisterWriters

open Sys2Proof Sys2Proof.Machine

/-! The rows of R38, and how they lie in each other. -/

abbrev cursorWriters : List (Option HostOp) :=
  [some .adapterDetected, some .findFirstDevice, some .findNextDevice, some .isPresent, some .freePort]

abbrev lastAddrWriters : List (Option HostOp) := [some .findFirstDevice, some .findNextDevice]

abbrev addrValidWriters : List (Option HostOp) :=
  [some .findFirstDevice, some .findNextDevice, some .adapterDetected, some .freePort]

abbrev sstateWriters : List (Option HostOp) :=
  [some .adapterDetected, some .findFirstDevice, some .findNextDevice, some .freePort]

abbrev tokenWriters : List (Option HostOp) := [some .beginExclusive, some .endExclusive]

abbrev bufWriters : List (Option HostOp) := [some .dataBlock, some .getAddress]

/-- The operations that run the probe (R164). -/
abbrev probers : List (Option HostOp) := [some .adapterDetected, some .findFirstDevice]

abbrev logWriters : List (Option HostOp) :=
  [some .adapterDetected, some .findFirstDevice, some .findNextDevice, some .isPresent, some .select,
    some .setSearchOnlyAlarmingDevices, some .setNoResetSearch, some .setSearchAllDevices, some .targetFamily,
    some .targetAllFamilies]

theorem addrValidWriters_subset_cursorWriters : addrValidWriters ⊆ cursorWriters := by decide

theorem addrValidWriters_subset_sstateWriters : addrValidWriters ⊆ sstateWriters := by decide

theorem sstateWriters_subset_cursorWriters : sstateWriters ⊆ cursorWriters := by decide

theorem lastAddrWriters_subset_addrValidWriters : lastAddrWriters ⊆ addrValidWriters := by decide

theorem lastAddrWriters_subset_logWriters : lastAddrWriters ⊆ logWriters := by decide

theorem probers_subset_addrValidWriters : probers ⊆ addrValidWriters := by decide

theorem probers_subset_logWriters : probers ⊆ logWriters := by decide

section

variable {o : Option HostOp} {s t u : State}

/-- Each register differs between `s` and `t` only if `o` stands in its row (R38); the tables keep their sizes. -/
structure Within (o : Option HostOp) (s t : State) : Prop where
  cursor : t.cursor ≠ s.cursor → o ∈ cursorWriters
  lastAddr : t.lastAddr ≠ s.lastAddr → o ∈ lastAddrWriters
  addrValid : t.addrValid ≠ s.addrValid → o ∈ addrValidWriters
  sstate : t.sstate ≠ s.sstate → o ∈ sstateWriters
  tokens : ¬SameTokens s t → o ∈ tokenWriters
  buf : t.buf ≠ s.buf → o ∈ bufWriters
  readyUp : (∃ x, t.readyAt x = true ∧ s.readyAt x = false) → o ∈ probers
  ready : t.ready ≠ s.ready → o ∈ probers ∨ s.cfg.downgrade = true
  log : t.log ≠ s.log → o ∈ logWriters
  cfg : t.cfg = s.cfg
  agenda : t.agenda = s.agenda
  hreq : t.hreq = s.hreq
  readyLen : t.ready.length = s.ready.length
  sessionsLen : t.sessions.length = s.sessions.length

theorem Within.refl (o : Option HostOp) (s : State) : Within o s s where
  cursor h := absurd rfl h
  lastAddr h := absurd rfl h
  addrValid h := absurd rfl h
  sstate h := absurd rfl h
  tokens h := absurd ⟨rfl, fun _ => ⟨rfl, rfl⟩⟩ h
  buf h := absurd rfl h
  readyUp := fun ⟨_, hup, hdown⟩ => absurd (hup.symm.trans hdown) Bool.noConfusion
  ready h := absurd rfl h
  log h := absurd rfl h
  cfg := rfl
  agenda := rfl
  hreq := rfl
  readyLen := rfl
  sessionsLen := rfl

/-- What has changed over two stretches has changed over one of them. -/
theorem of_ne_trans {α : Type} {P : Prop} {a b c : α} (hab : b ≠ a → P) (hbc : c ≠ b → P) (hac : c ≠ a) : P := by
  by_cases h : b = a
  · exact hbc (h ▸ hac)
  · exact hab h

theorem SameTokens.trans (h : SameTokens s t) (k : SameTokens t u) : SameTokens s u :=
  ⟨k.1.trans h.1, fun x => ⟨(k.2 x).1.trans (h.2 x).1, (k.2 x).2.trans (h.2 x).2⟩⟩

theorem Within.trans (h : Within o s t) (k : Within o t u) : Within o s u where
  cursor := of_ne_trans h.cursor k.cursor
  lastAddr := of_ne_trans h.lastAddr k.lastAddr
  addrValid := of_ne_trans h.addrValid k.addrValid
  sstate := of_ne_trans h.sstate k.sstate
  tokens hsu := by
    by_cases hst : SameTokens s t
    · exact k.tokens fun htu => hsu (SameTokens.trans hst htu)
    · exact h.tokens hst
  buf := of_ne_trans h.buf k.buf
  readyUp := by
    rintro ⟨x, hu, hs⟩
    cases ht : t.readyAt x with
    | true => exact h.readyUp ⟨x, ht, hs⟩
    | false => exact k.readyUp ⟨x, hu, ht⟩
  ready := of_ne_trans h.ready fun hne => h.cfg ▸ k.ready hne
  log := of_ne_trans h.log k.log
  cfg := k.cfg.trans h.cfg
  agenda := k.agenda.trans h.agenda
  hreq := k.hreq.trans h.hreq
  readyLen := k.readyLen.trans h.readyLen
  sessionsLen := k.sessionsLen.trans h.sessionsLen

/-! One rule for each named update. -/

theorem Within.setCursor (s : State) (c : Nat) (ho : o ∈ cursorWriters) : Within o s (s.setCursor c) :=
  { Within.refl o s with cursor := fun _ => ho }

theorem Within.setAddr (s : State) (a : DevAddr) (ho : o ∈ lastAddrWriters) : Within o s (s.setAddr a) :=
  { Within.refl o s with
    lastAddr := fun _ => ho, addrValid := fun _ => lastAddrWriters_subset_addrValidWriters ho }

theorem Within.clearAddr (s : State) (ho : o ∈ addrValidWriters) : Within o s s.clearAddr :=
  { Within.refl o s with addrValid := fun _ => ho }

theorem Within.setSState (s : State) (st : SState) (ho : o ∈ sstateWriters) : Within o s (s.setSState st) :=
  { Within.refl o s with sstate := fun _ => ho }

theorem Within.setReady (s : State) (c : Nat) (b : Bool) (ho : o ∈ probers) : Within o s (s.setReady c b) :=
  { Within.refl o s with
    readyUp := fun _ => ho, ready := fun _ => .inl ho, readyLen := setReady_ready_length s c b }

theorem Within.logExchange (s : State) (sid : Nat) (op : HostOp) (c : Nat) (cmd : WireCmd) (r : XRes)
    (ho : o ∈ logWriters) : Within o s (s.logExchange sid op c cmd r) :=
  { Within.refl o s with log := fun _ => ho }

theorem Within.memWrite (s : State) (addr : Nat) (v : List Byte) (ho : o ∈ bufWriters) :
    Within o s (memWrite s addr v) :=
  { Within.refl o s with buf := fun _ => ho }

theorem Within.setSeq (s : State) (q : Sequencer) : Within o s (s.setSeq q) := { Within.refl o s with }

theorem Within.setExcl (s : State) (b : Bool) (ho : o ∈ tokenWriters) : Within o s (s.setExcl b) :=
  { Within.refl o s with tokens := fun _ => ho }

theorem Within.updSession (s : State) (sid : Nat) (f : Session → Session) (ho : o ∈ tokenWriters) :
    Within o s (s.updSession sid f) :=
  { Within.refl o s with tokens := fun _ => ho, sessionsLen := updSession_sessions_length s sid f }

/-- A result is no token: any operation may deliver one (R93). -/
theorem Within.deliver (sid : Nat) (v : Verdict) (s : State) : Within o s (deliver sid v s) :=
  { Within.refl o s with
    tokens := fun h => absurd ⟨rfl, fun x => deliver_tokens sid x v s⟩ h
    sessionsLen := updSession_sessions_length s sid _ }

/-- Traffic is within every operation's rows, where only the downgrade has changed the ready table. -/
theorem Within.of_traffic (h : Traffic s t) (hready : t.ready ≠ s.ready → s.cfg.downgrade = true) :
    Within o s t where
  cursor hne := absurd h.cursor hne
  lastAddr hne := absurd h.lastAddr hne
  addrValid hne := absurd h.addrValid hne
  sstate hne := absurd h.sstate hne
  tokens hne := absurd ⟨h.excl, fun x => by simp only [h.session, and_self]⟩ hne
  buf hne := absurd h.buf hne
  readyUp := fun ⟨x, hup, hdown⟩ => absurd ((h.readyDown x hup).symm.trans hdown) Bool.noConfusion
  ready hne := .inr (hready hne)
  log hne := absurd h.log hne
  cfg := h.cfg
  agenda := h.agenda
  hreq := h.hreq
  readyLen := h.readyLen
  sessionsLen := congrArg List.length h.sessions

/-! The exchange: only the downgrade touches the ready table (R121). -/

theorem downgrade_of_downgradeOn_ready_ne {c : Nat} {r : XRes} (h : (downgradeOn c r s).ready ≠ s.ready) :
    s.cfg.downgrade = true := by
  cases r with
  | err cause info =>
    by_cases hd : s.cfg.downgrade = true
    · exact hd
    · exact absurd (by simp [downgradeOn, hd]) h
  | ok pay => exact absurd rfl h
  | skipped => exact absurd rfl h

theorem downgradeOn_within (c : Nat) (r : XRes) (s : State) : Within o s (downgradeOn c r s) :=
  .of_traffic (downgradeOn_spec c r s).1 downgrade_of_downgradeOn_ready_ne

theorem exchange_within (ch : Byte) (cmd : WireCmd) (pay : List Byte) (n : Nat) (s : State) :
    Within o s (exchange ch cmd pay n s).2 :=
  .of_traffic (exchange_spec ch cmd pay n s).1 (absurd (exchange_ready ch cmd pay n s))

theorem exchangeCh_within (c : Nat) (cmd : WireCmd) (pay : List Byte) (n : Nat) (s : State) :
    Within o s (exchangeCh c cmd pay n s).2 :=
  (exchange_within (byteOf c) cmd pay n s).trans (downgradeOn_within c _ _)

theorem route1_within (cmd : WireCmd) (pay : List Byte) (n : Nat) (s : State) :
    Within o s (route1 cmd pay n s).2 := by
  unfold route1
  split
  · exact exchangeCh_within ..
  · exact .refl o s

/-! The bodies of the routed operations. -/

theorem connectPort_within (s : State) : Within o s (connectPort s).2 :=
  .of_traffic (Traffic.setTr s _) (absurd rfl)

theorem invalidateSearch_within (s : State) (ho : o ∈ addrValidWriters) : Within o s (invalidateSearch s) :=
  ((Within.setCursor s 0 (addrValidWriters_subset_cursorWriters ho)).trans (.clearAddr _ ho)).trans
    (.setSState _ .idle (addrValidWriters_subset_sstateWriters ho))

theorem broadcastOver_within (sid : Nat) (op : HostOp) (cmd : WireCmd) (pay : List Byte) (ho : o ∈ logWriters)
    (cs : List Nat) (s : State) : Within o s (broadcastOver sid op cmd pay cs s) := by
  induction cs generalizing s with
  | nil => exact .refl o s
  | cons c cs ih =>
    have hci : Within o s (s.setCi c) := .setSeq s _
    simp only [broadcastOver]
    split
    · exact ((hci.trans (exchangeCh_within ..)).trans (.logExchange _ sid op c cmd _ ho)).trans (ih _)
    · exact (hci.trans (.logExchange _ sid op c cmd _ ho)).trans (ih _)

theorem probeOver_within (sid : Nat) (op : HostOp) (ho : o ∈ probers) (cs : List Nat) (any : Bool) (s : State) :
    Within o s (probeOver sid op cs any s).2 := by
  induction cs generalizing any s with
  | nil => exact .refl o s
  | cons c cs ih =>
    have hlog := probers_subset_logWriters ho
    have hping : Within o s (exchange (byteOf c) .pingChannel [] (respLenOf s.cfg .pingChannel [])
        ((s.setCi c).setReady c false)).2 :=
      ((Within.setSeq s _).trans (.setReady _ c false ho)).trans (exchange_within ..)
    simp only [probeOver]
    split
    · exact ((hping.trans (.setReady _ c true ho)).trans (.logExchange _ sid op c _ _ hlog)).trans (ih _ _)
    · exact (hping.trans (.logExchange _ sid op c _ _ hlog)).trans (ih _ _)
    · exact (hping.trans (.logExchange _ sid op c _ _ hlog)).trans (ih _ _)

theorem probe_within (sid : Nat) (op : HostOp) (s : State) (ho : o ∈ probers) : Within o s (probe sid op s).2 :=
  (invalidateSearch_within s (probers_subset_addrValidWriters ho)).trans (probeOver_within sid op ho _ _ _)

theorem fetchAddr_within (sid : Nat) (op : HostOp) (c : Nat) (s : State) (ho : o ∈ lastAddrWriters) :
    Within o s (fetchAddr sid op c s).2 := by
  have hget : Within o s (exchangeCh c .getAddress [] (respLenOf s.cfg .getAddress []) s).2 := exchangeCh_within ..
  unfold fetchAddr
  dsimp only
  split
  · exact hget.trans (.setAddr _ _ ho)
  · exact hget
  · exact hget.trans (.logExchange _ sid op c _ _ (lastAddrWriters_subset_logWriters ho))

theorem findOn_within (sid : Nat) (op : HostOp) (c : Nat) (cmd : WireCmd) (s : State) (ho : o ∈ lastAddrWriters) :
    Within o s (findOn sid op c cmd s).2 := by
  have hfind : Within o s (exchangeCh c cmd [] (respLenOf s.cfg cmd []) s).2 := exchangeCh_within ..
  unfold findOn
  dsimp only
  split
  · split
    · exact hfind.trans (fetchAddr_within sid op c _ ho)
    · exact hfind
  · exact hfind
  · exact hfind.trans (.logExchange _ sid op c cmd _ (lastAddrWriters_subset_logWriters ho))

theorem scanOver_within (sid : Nat) (op : HostOp) (ho : o ∈ lastAddrWriters) (cs : List Nat) (s : State) :
    Within o s (scanOver sid op cs s).2 := by
  have hvalid := lastAddrWriters_subset_addrValidWriters ho
  have hsstate := addrValidWriters_subset_sstateWriters hvalid
  have hcursor := addrValidWriters_subset_cursorWriters hvalid
  induction cs generalizing s with
  | nil => exact (Within.setSState s _ hsstate).trans (.setCursor _ 0 hcursor)
  | cons c cs ih =>
    have hstart : Within o s (((s.setSState .searching).setCursor c).setCi c) :=
      ((Within.setSState s _ hsstate).trans (.setCursor _ c hcursor)).trans (.setSeq _ _)
    have hfind := hstart.trans (findOn_within sid op c .findFirst _ ho)
    simp only [scanOver]
    split
    · split
      · exact hfind.trans (.setSState _ _ hsstate)
      · exact hfind.trans (ih _)
    · exact hstart.trans (ih _)

theorem findFirst_within (sid : Nat) (s : State) : Within (some .findFirstDevice) s (findFirst sid s).2 :=
  (probe_within sid .findFirstDevice s (by decide)).trans (scanOver_within sid _ (by decide) _ _)

theorem findNext_within (sid : Nat) (s : State) : Within (some .findNextDevice) s (findNext sid s).2 := by
  have hstart : Within (some .findNextDevice) s (s.setSState .searching) := .setSState s _ (by decide)
  have hfind := hstart.trans (findOn_within sid .findNextDevice s.cursor .findNext _ (by decide))
  unfold findNext
  dsimp only
  split
  · split
    · exact hfind.trans (.setSState _ _ (by decide))
    · exact hfind.trans (scanOver_within sid _ (by decide) _ _)
  · exact hstart.trans (scanOver_within sid _ (by decide) _ _)

theorem presentOver_within (sid : Nat) (addr : DevAddr) (cs : List Nat) (s : State) :
    Within (some .isPresent) s (presentOver sid addr cs s).2 := by
  induction cs generalizing s with
  | nil => exact .setCursor s 0 (by decide)
  | cons c cs ih =>
    have hci : Within (some .isPresent) s (s.setCi c) := .setSeq s _
    have hask := hci.trans (exchangeCh_within c .searchRom (addrBytes addr)
      (respLenOf s.cfg .searchRom (addrBytes addr)) _)
    have hrewind := hask.trans (.setCursor _ 0 (by decide))
    simp only [presentOver]
    split
    · split
      · split
        · exact hrewind
        · exact hask.trans (ih _)
      · exact hask.trans (ih _)
      · split
        · exact hrewind
        · exact (hrewind.trans (.logExchange _ sid .isPresent c _ _ (by decide))).trans (ih _)
    · exact hci.trans (ih _)

theorem selectDevice_within (sid : Nat) (addr : DevAddr) (s : State) :
    Within (some .select) s (selectDevice sid addr s).2 := by
  have hask : Within (some .select) s
      (route1 .matchRom (addrBytes addr) (respLenOf s.cfg .matchRom (addrBytes addr)) s).2 := route1_within ..
  unfold selectDevice
  dsimp only
  split
  · exact hask
  · exact hask
  · split
    · exact hask
    · exact hask.trans (.logExchange _ sid .select _ _ _ (by decide))

theorem moveBlock_within (off n : Nat) (s : State) : Within (some .dataBlock) s (moveBlock off n s).2 := by
  have hask : Within (some .dataBlock) s (route1 .dataBlock (memRead s off n) n s).2 := route1_within ..
  unfold moveBlock
  dsimp only
  split
  · exact hask.trans (.memWrite _ off _ (by decide))
  · exact hask
  · exact hask

/-! The arbiter's operations. -/

theorem acquirePass_within (sid : Nat) (blocking : Bool) (s : State) (ho : o ∈ tokenWriters) :
    Within o s (acquirePass sid blocking s) ∧ (acquirePass sid blocking s).seq = s.seq := by
  unfold acquirePass transportTryAcquire
  dsimp only
  split
  · cases blocking
    · exact ⟨.deliver sid _ s, rfl⟩
    · exact ⟨.updSession s sid _ ho, rfl⟩
  · exact ⟨((Within.setExcl s true ho).trans (.updSession _ sid _ ho)).trans (.deliver sid _ _), rfl⟩

theorem beginExclusive_within (sid : Nat) (blocking : Bool) (s : State) (ho : o ∈ tokenWriters) :
    Within o s (beginExclusive sid blocking s) ∧ (beginExclusive sid blocking s).seq = s.seq := by
  unfold beginExclusive
  split
  · exact ⟨.deliver sid _ s, rfl⟩
  · exact acquirePass_within sid blocking s ho

theorem endExclusive_within (sid : Nat) (s : State) (ho : o ∈ tokenWriters) :
    Within o s (endExclusive sid s) ∧ (endExclusive sid s).seq = s.seq := by
  unfold endExclusive
  split
  · exact ⟨((Within.setExcl s false ho).trans (.updSession _ sid _ ho)).trans (.deliver sid _ _), rfl⟩
  · exact ⟨.deliver sid _ s, rfl⟩

/-! Whole instructions. -/

/-- What an instruction that answers a next state has done: it stayed within the rows of `o`, and left the sequencer as it
was or free (R28). -/
structure Ran (o : Option HostOp) (s t : State) : Prop extends Within o s t where
  rests : t.seq = s.seq ∨ Idle t

theorem Ran.refl (o : Option HostOp) (s : State) : Ran o s s := ⟨.refl o s, .inl rfl⟩

theorem Within.ran_goIdle (h : Within o s t) : Ran o s t.goIdle := ⟨h.trans (.setSeq t _), .inr ⟨rfl, rfl⟩⟩

/-- A routed operation was not accepted and had no effect, or ran whole from acceptance to result (R28, R96, R97). -/
theorem runRouted_next {i : Instr} {sid : Nat} {body : State → Verdict × State}
    (h : runRouted i sid body s = .next t) :
    t = s ∨ wellFormed s.cfg i = true ∧ t = (deliver sid (body (s.accept i)).1 (body (s.accept i)).2).goIdle := by
  unfold runRouted at h
  split at h
  · rename_i haccepted
    cases h
    exact .inr ⟨(Bool.and_eq_true _ _ ▸ haccepted).1, rfl⟩
  · cases h
    exact .inl rfl

theorem runRouted_ran {i : Instr} {sid : Nat} {body : State → Verdict × State}
    (h : runRouted i sid body s = .next t) (hbody : ∀ u, Within o u (body u).2) : Ran o s t := by
  obtain rfl | ⟨-, rfl⟩ := runRouted_next h
  · exact .refl o t
  · exact (((Within.setSeq s _).trans (hbody _)).trans (.deliver sid _ _)).ran_goIdle

/-- An arbiter operation was not accepted and had no effect, or ran at once (R96, R97). -/
theorem runArbiter_next {i : Instr} {body : State → State} (h : runArbiter i body s = .next t) :
    t = s ∨ t = body s := by
  unfold runArbiter at h
  split at h
  · cases h
    exact .inr rfl
  · cases h
    exact .inl rfl

theorem runArbiter_ran {i : Instr} {body : State → State} (h : runArbiter i body s = .next t)
    (hbody : Within o s (body s) ∧ (body s).seq = s.seq) : Ran o s t := by
  obtain rfl | rfl := runArbiter_next h
  · exact .refl o t
  · exact ⟨hbody.1, .inl hbody.2⟩

theorem runWire_ran {i : Instr} {ch : Byte} {cmd : WireCmd} {pay : List Byte} (h : runWire i ch cmd pay s = .next t) :
    Ran o s t := by
  unfold runWire at h
  split at h
  · cases h
    exact (exchangeCh_within ..).ran_goIdle
  · cases h
    exact (Within.setSeq s _).ran_goIdle

theorem execCmdPingChannel_ran {ch : Byte} (h : execCmdPingChannel ch s = .next t) : Ran o s t := by
  unfold execCmdPingChannel at h
  split at h
  · cases h
    exact (exchange_within ..).ran_goIdle
  · cases h
    exact (Within.setSeq s _).ran_goIdle

theorem checkResponse_ran {ch status : Byte} {pay : List Byte} (h : checkResponse ch status pay s = .next t) :
    Ran o s t := by
  have hend (r : XRes) : Within o s (s.endExchange r) := .setSeq s _
  unfold checkResponse at h
  cases h
  split
  · exact (hend _).ran_goIdle
  · exact ((hend _).trans (downgradeOn_within ..)).ran_goIdle

/-! The arms whose body is a pair written out. -/

theorem exec_freePort (sid port : Nat) (s : State) : exec (.freePort sid port) s =
    runRouted (.freePort sid port) sid (fun u => (.ok, invalidateSearch u)) s := rfl

theorem exec_adapterDetected (sid : Nat) (s : State) : exec (.adapterDetected sid) s =
    runRouted (.adapterDetected sid) sid
      (fun u => (.okBool (probe sid .adapterDetected u).1, (probe sid .adapterDetected u).2)) s := rfl

theorem exec_getAddress (sid off : Nat) (s : State) : exec (.getAddress sid off) s =
    runRouted (.getAddress sid off) sid (fun u => (.ok, memWrite u off (lastAddrBytes u))) s := rfl

theorem exec_reset (sid : Nat) (s : State) : exec (.reset sid) s =
    runRouted (.reset sid) sid (fun u =>
      (resetVerdict (route1 .reset [] (respLenOf u.cfg .reset []) u).1,
        (route1 .reset [] (respLenOf u.cfg .reset []) u).2)) s := rfl

/-- Every instruction stays within the rows of its operation (R38), and leaves the sequencer as it was or free. -/
theorem exec_ran {i : Instr} (h : exec i s = .next t) : Ran (hostOpOf i) s t := by
  cases i with
  | cmdPingChannel => exact execCmdPingChannel_ran h
  | cmdFindFirst | cmdFindNext | cmdGetAddress | cmdSetSearchOnlyAlarming | cmdSetNoResetSearch | cmdSetSearchAll
  | cmdPutBit | cmdGetByte | cmdGetBlock | cmdDataBlock | cmdReset | cmdPutByte | cmdTargetFamily
  | cmdTargetAllFamilies | cmdSearchRom | cmdMatchRom => exact runWire_ran h
  | cmdSetPowerNormal => cases h
  | respSuccess | respFailure | respOther => exact checkResponse_ran h
  | selectPort => exact runRouted_ran h connectPort_within
  | freePort =>
    rw [exec_freePort] at h
    exact runRouted_ran h fun u => invalidateSearch_within u (by simp [hostOpOf])
  | adapterDetected sid =>
    rw [exec_adapterDetected] at h
    exact runRouted_ran h fun u => probe_within sid _ u (by simp [hostOpOf])
  | findFirstDevice sid => exact runRouted_ran h (findFirst_within sid)
  | findNextDevice sid => exact runRouted_ran h (findNext_within sid)
  | getAddress sid off =>
    rw [exec_getAddress] at h
    exact runRouted_ran h fun u => .memWrite u off _ (by simp [hostOpOf])
  | isPresent sid addr => exact runRouted_ran h fun u => presentOver_within sid addr _ u
  | select sid addr => exact runRouted_ran h (selectDevice_within sid addr)
  | reset =>
    rw [exec_reset] at h
    exact runRouted_ran h fun u => route1_within _ _ _ u
  | putBit | getBit | putByte | getByte | getBlock => exact runRouted_ran h fun u => route1_within _ _ _ u
  | dataBlock sid off n => exact runRouted_ran h (moveBlock_within off n.toNat)
  | setSearchOnlyAlarmingDevices | setNoResetSearch | setSearchAllDevices | targetFamily | targetAllFamilies =>
    exact runRouted_ran h fun u => broadcastOver_within _ _ _ _ (by simp [hostOpOf]) _ u
  | beginExclusive sid blocking =>
    exact runArbiter_ran h (beginExclusive_within sid blocking s (by simp [hostOpOf]))
  | endExclusive sid => exact runArbiter_ran h (endExclusive_within sid s (by simp [hostOpOf]))

end

/-- Settles O50: the rows of R38 are the fields of `Within`, and every instruction stays within those of its operation. -/
theorem registersHaveOnlyTheirWriters : Obligations.RegistersHaveOnlyTheirWriters := by
  intro s t i h
  have hran := exec_ran h
  exact ⟨hran.cursor, hran.lastAddr, hran.addrValid, hran.sstate, hran.tokens, hran.buf, hran.readyUp, hran.ready,
    hran.log, hran.cfg, hran.agenda, hran.hreq⟩

end Sys2Proof.Proofs.RegisterWriters

/-! The invariants (10_state.md R36). `Inv` falls into a part about the search registers, one about the tokens and one
about `BUF`, beside the sizes. The writer list gives every part but those the operation at hand writes, so that each
operation owes a proof of its own row alone. -/

namespace Sys2Proof.Proofs.Invariants

open Sys2Proof Sys2Proof.Machine Sys2Proof.Proofs.RegisterWriters

/-! Reset (R300). -/

theorem resetWith_session (c : Config) (x : Nat) : (State.resetWith c).session x = Session.initial := by
  simp only [State.session, State.resetWith, List.getD_eq_getElem?_getD, List.getElem?_replicate]
  split <;> rfl

/-- Settles O2: right after reset no session holds or polls, the search is idle, and `BUF` lists nothing. -/
theorem resetSatisfiesInvariant : Obligations.ResetSatisfiesInvariant := by
  intro c hc
  have hholds (x : Nat) : ((State.resetWith c).session x).holds ≠ true := by
    rw [resetWith_session]; exact Bool.noConfusion
  exact
    { cfgWf := hc
      bufWf := rfl
      bufIn := fun _ hcell => absurd hcell List.not_mem_nil
      readyLen := List.length_replicate
      sessionsLen := List.length_replicate
      cursorIn := hc.1
      oneHolder := fun a _ ha => absurd ha (hholds a)
      holderExcl := fun a ha => absurd ha (hholds a)
      notSearching := SState.noConfusion
      foundValid := SState.noConfusion
      pollerHoldsNot := fun a _ => Bool.eq_false_iff.2 (hholds a)
      busyPhase := iff_of_true rfl rfl }

section

variable {o : Option HostOp} {s t : State}

/-! The three parts. -/

/-- (I-a), (I-d), (I-e). -/
structure SearchOk (s : State) : Prop where
  cursorIn : s.cursor < s.cfg.maxChannels
  notSearching : s.sstate ≠ .searching
  foundValid : s.sstate = .found → s.addrValid = true

/-- (I-b), (I-c), (I-f). -/
structure TokensOk (s : State) : Prop where
  oneHolder : ∀ a b, (s.session a).holds = true → (s.session b).holds = true → a = b
  holderExcl : ∀ a, (s.session a).holds = true → s.excl = true
  pollerHoldsNot : ∀ a, (s.session a).astate = .polling → (s.session a).holds = false

/-- `BUF` is in canonical form and lists only addresses of the space (R50). -/
structure BufOk (s : State) : Prop where
  wf : Memory.wf s.buf = true
  inSpace : ∀ cell ∈ s.buf, cell.1 < 2 ^ s.cfg.bufAw

theorem searchOk_of_inv (h : Inv s) : SearchOk s := ⟨h.cursorIn, h.notSearching, h.foundValid⟩

theorem tokensOk_of_inv (h : Inv s) : TokensOk s := ⟨h.oneHolder, h.holderExcl, h.pollerHoldsNot⟩

theorem bufOk_of_inv (h : Inv s) : BufOk s := ⟨h.bufWf, h.bufIn⟩

theorem SearchOk.channels_pos (h : SearchOk s) : 0 < s.cfg.maxChannels := Nat.zero_lt_of_lt h.cursorIn

theorem SearchOk.of_same (h : SearchOk s) (hcfg : t.cfg = s.cfg) (hcursor : t.cursor = s.cursor)
    (hvalid : t.addrValid = s.addrValid) (hsstate : t.sstate = s.sstate) : SearchOk t := by
  obtain ⟨hin, hnot, hfound⟩ := h
  exact ⟨by rwa [hcursor, hcfg], by rwa [hsstate], by rwa [hsstate, hvalid]⟩

theorem TokensOk.of_same (h : TokensOk s) (hsame : SameTokens s t) : TokensOk t := by
  obtain ⟨hexcl, hsession⟩ := hsame
  have hholds x := (hsession x).1
  have hastate x := (hsession x).2
  obtain ⟨hone, hheld, hpoll⟩ := h
  exact ⟨by simpa only [hholds] using hone, by simpa only [hholds, hexcl] using hheld,
    by simpa only [hholds, hastate] using hpoll⟩

/-- What stayed within the rows of `o` keeps the invariants if it keeps the parts whose registers `o` may write. -/
theorem inv_of_ran (h : Inv s) (hran : Ran o s t) (hsearch : o ∈ cursorWriters → SearchOk t)
    (htokens : o ∈ tokenWriters → TokensOk t) (hbuf : o ∈ bufWriters → BufOk t) : Inv t := by
  have search : SearchOk t := by
    by_cases ho : o ∈ cursorWriters
    · exact hsearch ho
    · have hsstate := mt (@sstateWriters_subset_cursorWriters o) ho
      have hvalid := mt (@addrValidWriters_subset_cursorWriters o) ho
      exact (searchOk_of_inv h).of_same hran.cfg (not_ne_iff.1 (mt hran.cursor ho))
        (not_ne_iff.1 (mt hran.addrValid hvalid)) (not_ne_iff.1 (mt hran.sstate hsstate))
  have tokens : TokensOk t := by
    by_cases ho : o ∈ tokenWriters
    · exact htokens ho
    · exact (tokensOk_of_inv h).of_same (not_not.1 (mt hran.tokens ho))
  have buf : BufOk t := by
    by_cases ho : o ∈ bufWriters
    · exact hbuf ho
    · have hsame := not_ne_iff.1 (mt hran.buf ho)
      exact ⟨hsame ▸ h.bufWf, by rw [hsame, hran.cfg]; exact h.bufIn⟩
  have busyPhase : t.seq.busy = false ↔ t.seq.phase = .idle := by
    obtain hseq | ⟨hbusy, hphase⟩ := hran.rests
    · rw [hseq]; exact h.busyPhase
    · exact iff_of_true hbusy hphase
  exact
    { search, tokens with
      cfgWf := hran.cfg ▸ h.cfgWf
      bufWf := buf.wf
      bufIn := buf.inSpace
      readyLen := by rw [hran.readyLen, hran.cfg]; exact h.readyLen
      sessionsLen := by rw [hran.sessionsLen, hran.cfg]; exact h.sessionsLen
      busyPhase }

/-! The search registers. -/

theorem invalidateSearch_searchOk (h : 0 < s.cfg.maxChannels) : SearchOk (invalidateSearch s) :=
  ⟨h, SState.noConfusion, SState.noConfusion⟩

theorem mem_channelsFrom {c : Config} {start x : Nat} : x ∈ channelsFrom c start ↔ start ≤ x ∧ x < c.maxChannels := by
  rw [channelsFrom, List.mem_range'_1]
  omega

theorem probe_searchOk (sid : Nat) (op : HostOp) (hpos : 0 < s.cfg.maxChannels)
    (hlen : s.ready.length = s.cfg.maxChannels) : SearchOk (probe sid op s).2 := by
  have hin : ∀ c ∈ channelsFrom s.cfg 0, c < (invalidateSearch s).ready.length :=
    fun c hc => hlen ▸ (mem_channelsFrom.1 hc).2
  obtain ⟨hkept, ⟨hcursor, -, hvalid, hsstate⟩, -⟩ :=
    probeOver_spec sid op (channelsFrom s.cfg 0) List.nodup_range' false (invalidateSearch s) hin
  exact (invalidateSearch_searchOk hpos).of_same hkept.cfg hcursor hvalid hsstate

/-- A scan settles the search whatever state it starts in: it ends `Found` on a channel of its own with an address, or
`Exhausted` (R222). -/
theorem scanFrom_searchOk (sid : Nat) (op : HostOp) (start : Nat) (hpos : 0 < s.cfg.maxChannels) :
    SearchOk (scanFrom sid op start s).2 := by
  obtain ⟨hkept, -, -, hhit, hmiss⟩ := scanOver_spec sid op (channelsFrom s.cfg start) s
  unfold scanFrom
  cases hfound : (scanOver sid op (channelsFrom s.cfg start) s).1 with
  | true =>
    obtain ⟨hsstate, hvalid, hcursor, -⟩ := hhit hfound
    exact ⟨by rw [hkept.cfg]; exact (mem_channelsFrom.1 hcursor).2, by rw [hsstate]; decide, fun _ => hvalid⟩
  | false =>
    obtain ⟨hsstate, hcursor, -⟩ := hmiss hfound
    exact ⟨by rw [hcursor, hkept.cfg]; exact hpos, by rw [hsstate]; decide, by rw [hsstate]; exact SState.noConfusion⟩

theorem findFirst_searchOk (sid : Nat) (hpos : 0 < s.cfg.maxChannels) : SearchOk (findFirst sid s).2 := by
  have hcfg := (probe_within sid .findFirstDevice s (o := some .findFirstDevice) (by decide)).cfg
  exact scanFrom_searchOk sid .findFirstDevice 0 (hcfg ▸ hpos)

/-- findNextDevice stays on the cursor's channel with a fresh address, or ends as its scan does (R224). -/
theorem findNext_searchOk (sid : Nat) (h : SearchOk s) : SearchOk (findNext sid s).2 := by
  have hpos := h.channels_pos
  obtain ⟨hkept, hcursor, -, -, -, hhit, -⟩ :=
    findOn_spec sid .findNextDevice s.cursor .findNext (s.setSState .searching)
  unfold findNext findNextFallback
  dsimp only
  split
  · split
    · rename_i hfound
      refine ⟨?_, SState.noConfusion, fun _ => (hhit hfound).1⟩
      rw [setSState_cursor, setSState_cfg, hcursor, hkept.cfg]
      exact h.cursorIn
    · exact scanFrom_searchOk sid _ _ (hkept.cfg ▸ hpos)
  · exact scanFrom_searchOk sid _ _ hpos

theorem presentOver_searchOk (sid : Nat) (addr : DevAddr) (cs : List Nat) (h : SearchOk s) :
    SearchOk (presentOver sid addr cs s).2 := by
  have hspec := presentOver_spec sid addr cs s
  have hrewound : SearchOk (s.setCursor 0) := ⟨h.channels_pos, h.notSearching, h.foundValid⟩
  exact hrewound.of_same hspec.kept.cfg hspec.cursor hspec.addrValid hspec.sstate

theorem runRouted_searchOk {i : Instr} {sid : Nat} {body : State → Verdict × State}
    (he : runRouted i sid body s = .next t) (h : SearchOk s) (hbody : SearchOk (body (s.accept i)).2) :
    SearchOk t := by
  obtain rfl | ⟨-, rfl⟩ := runRouted_next he
  · exact h
  · exact { hbody with }

theorem exec_keeps_searchOk {i : Instr} (h : Inv s) (he : exec i s = .next t) (hi : hostOpOf i ∈ cursorWriters) :
    SearchOk t := by
  have hsearch := searchOk_of_inv h
  have hpos : 0 < s.cfg.maxChannels := hsearch.channels_pos
  cases i with
  | freePort =>
    rw [exec_freePort] at he
    exact runRouted_searchOk he hsearch (invalidateSearch_searchOk hpos)
  | adapterDetected sid =>
    rw [exec_adapterDetected] at he
    exact runRouted_searchOk he hsearch (probe_searchOk sid _ hpos h.readyLen)
  | findFirstDevice sid => exact runRouted_searchOk he hsearch (findFirst_searchOk sid hpos)
  | findNextDevice sid => exact runRouted_searchOk he hsearch (findNext_searchOk sid { hsearch with })
  | isPresent sid addr => exact runRouted_searchOk he hsearch (presentOver_searchOk sid addr _ { hsearch with })
  | _ => simp [hostOpOf] at hi

/-! The tokens (R240 to R248). -/

/-- Changing one session changes at most what that session reads as. -/
theorem updSession_session_cases (s : State) (sid : Nat) (f : Session → Session) (x : Nat) :
    (s.updSession sid f).session x = s.session x ∨
      x = sid ∧ (s.updSession sid f).session x = f (s.session sid) := by
  by_cases hx : sid = x
  · subst hx
    by_cases hlen : sid < s.sessions.length
    · exact .inr ⟨rfl, updSession_session_self s sid f hlen⟩
    · exact .inl (by simp [State.session, List.getD_eq_getElem?_getD, List.getElem?_eq_none (Nat.le_of_not_lt hlen)])
  · exact .inl (updSession_session_ne s sid x f hx)

/-- A session that holds the token exists. -/
theorem lt_sessions_of_holds {x : Nat} (h : (s.session x).holds = true) : x < s.sessions.length := by
  by_contra hge
  have hinitial : s.session x = Session.initial := List.getD_eq_default _ _ (Nat.le_of_not_lt hge)
  rw [hinitial] at h
  exact Bool.noConfusion h

theorem TokensOk.deliver (sid : Nat) (v : Verdict) (h : TokensOk s) : TokensOk (deliver sid v s) :=
  h.of_same ⟨rfl, fun x => deliver_tokens sid x v s⟩

/-- Taking the free flag makes its taker the one holder (R242). -/
theorem TokensOk.grantToken (sid : Nat) (h : TokensOk s) (hfree : s.excl = false) :
    TokensOk (grantToken sid (s.setExcl true)) := by
  have hnone (x : Nat) : (s.session x).holds ≠ true := fun hx =>
    Bool.noConfusion ((h.holderExcl x hx).symm.trans hfree)
  have hread := updSession_session_cases (s.setExcl true) sid (fun e => { e with holds := true, astate := .idle })
  have honly (x : Nat) (hx : ((Machine.grantToken sid (s.setExcl true)).session x).holds = true) : x = sid := by
    obtain hold | ⟨rfl, -⟩ := hread x
    · exact absurd ((congrArg Session.holds hold).symm.trans hx) (hnone x)
    · rfl
  refine ⟨fun a b ha hb => (honly a ha).trans (honly b hb).symm, fun _ _ => rfl, fun a ha => ?_⟩
  obtain hold | ⟨-, hnew⟩ := hread a
  · exact (congrArg Session.holds hold).trans (Bool.eq_false_iff.2 (hnone a))
  · exact AState.noConfusion ((congrArg Session.astate hnew).symm.trans ha)

/-- A session that holds nothing may begin to poll (R242). -/
theorem TokensOk.startPolling (sid : Nat) (h : TokensOk s) (hnot : (s.session sid).holds = false) :
    TokensOk (startPolling sid s) := by
  have hread := updSession_session_cases s sid (fun e => { e with astate := .polling })
  have hholds (x : Nat) : ((Machine.startPolling sid s).session x).holds = (s.session x).holds := by
    obtain hold | ⟨rfl, hnew⟩ := hread x
    · exact congrArg Session.holds hold
    · exact (congrArg Session.holds hnew).trans rfl
  obtain ⟨hone, hheld, hpoll⟩ := h
  refine ⟨by simpa only [hholds] using hone, fun a ha => hheld a (hholds a ▸ ha), fun a ha => ?_⟩
  obtain hold | ⟨rfl, -⟩ := hread a
  · exact (hholds a).trans (hpoll a ((congrArg Session.astate hold).symm.trans ha))
  · exact (hholds a).trans hnot

/-- When the holder releases the flag, no session holds it (R243). -/
theorem TokensOk.dropToken (sid : Nat) (h : TokensOk s) (hholds : (s.session sid).holds = true) :
    TokensOk (dropToken sid (transportRelease s)) := by
  have hnone (x : Nat) : ((Machine.dropToken sid (transportRelease s)).session x).holds ≠ true := by
    intro hx
    by_cases hsid : sid = x
    · subst hsid
      have hread := updSession_session_self (transportRelease s) sid (fun e => { e with holds := false })
        (lt_sessions_of_holds hholds)
      exact Bool.noConfusion ((congrArg Session.holds hread).symm.trans hx)
    · have hread := updSession_session_ne (transportRelease s) sid x (fun e => { e with holds := false }) hsid
      exact hsid (h.oneHolder sid x hholds ((congrArg Session.holds hread).symm.trans hx))
  exact ⟨fun a _ ha => absurd ha (hnone a), fun a ha => absurd ha (hnone a), fun a _ => Bool.eq_false_iff.2 (hnone a)⟩

theorem acquirePass_tokensOk (sid : Nat) (blocking : Bool) (h : TokensOk s) (hnot : (s.session sid).holds = false) :
    TokensOk (acquirePass sid blocking s) := by
  unfold acquirePass transportTryAcquire
  cases hexcl : s.excl with
  | true =>
    cases blocking with
    | true => exact h.startPolling sid hnot
    | false => exact h.deliver sid _
  | false => exact (h.grantToken sid hexcl).deliver sid _

theorem beginExclusive_tokensOk (sid : Nat) (blocking : Bool) (h : TokensOk s) :
    TokensOk (beginExclusive sid blocking s) := by
  unfold beginExclusive
  split
  · exact h.deliver sid _
  · exact acquirePass_tokensOk sid blocking h (Bool.eq_false_iff.2 ‹_›)

theorem endExclusive_tokensOk (sid : Nat) (h : TokensOk s) : TokensOk (endExclusive sid s) := by
  unfold endExclusive
  split
  · exact (h.dropToken sid ‹_›).deliver sid _
  · exact h.deliver sid _

theorem exec_keeps_tokensOk {i : Instr} (h : Inv s) (he : exec i s = .next t) (hi : hostOpOf i ∈ tokenWriters) :
    TokensOk t := by
  have htokens := tokensOk_of_inv h
  cases i with
  | beginExclusive sid blocking =>
    obtain rfl | rfl := runArbiter_next he
    · exact htokens
    · exact beginExclusive_tokensOk sid blocking htokens
  | endExclusive sid =>
    obtain rfl | rfl := runArbiter_next he
    · exact htokens
    · exact endExclusive_tokensOk sid htokens
  | _ => simp [hostOpOf] at hi

/-! `BUF` (R50, R51). -/

theorem BufOk.memWrite {addr : Nat} {v : List Byte} (h : BufOk s) (hin : addr + v.length ≤ 2 ^ s.cfg.bufAw) :
    BufOk (memWrite s addr v) := by
  refine ⟨memWrite_wf s addr v h.wf, fun cell hcell => ?_⟩
  obtain hold | ⟨-, hlt⟩ := Memory.mem_writeList v s.buf addr cell hcell
  · exact h.inSpace cell hold
  · exact Nat.lt_of_lt_of_le hlt hin

theorem lastAddrBytes_length (s : State) : (lastAddrBytes s).length = 8 := by
  unfold lastAddrBytes
  split
  · rfl
  · simp

/-- What `Route1` answers `Ok` is a payload of the expected length (R115, R162). -/
theorem route1_ok_length {cmd : WireCmd} {pay p : List Byte} {n : Nat} (h : (route1 cmd pay n s).1 = .ok p) :
    p.length = n := by
  unfold route1 at h
  split at h
  · obtain ⟨q, hq, hlen⟩ | ⟨cause, info, herr, -⟩ := exchangeCh_cases s.cursor cmd pay n s
    · cases hq.symm.trans h
      exact hlen
    · cases herr.symm.trans h
  · cases h

theorem moveBlock_bufOk {off n : Nat} (h : BufOk s) (hin : off + n ≤ 2 ^ s.cfg.bufAw) :
    BufOk (moveBlock off n s).2 := by
  have htraffic := (route1_spec .dataBlock (memRead s off n) n s).1
  have hmid : BufOk (route1 .dataBlock (memRead s off n) n s).2 :=
    ⟨htraffic.buf ▸ h.wf, by rw [htraffic.buf, htraffic.cfg]; exact h.inSpace⟩
  unfold moveBlock
  dsimp only
  split
  · rename_i pay hpay
    exact hmid.memWrite (by rw [route1_ok_length hpay, htraffic.cfg]; exact hin)
  · exact hmid
  · exact hmid

/-- The region of an operand lies in the space (R92). -/
theorem region_bound {c : Config} {sid off n : Nat} (h : (sessionOk c sid && regionOk c off n) = true) :
    off + n ≤ 2 ^ c.bufAw := by
  simp only [regionOk, Bool.and_eq_true, decide_eq_true_eq] at h
  exact h.2.2

theorem runRouted_bufOk {i : Instr} {sid : Nat} {body : State → Verdict × State}
    (he : runRouted i sid body s = .next t) (h : BufOk s)
    (hbody : wellFormed s.cfg i = true → BufOk (body (s.accept i)).2) : BufOk t := by
  obtain rfl | ⟨hwf, rfl⟩ := runRouted_next he
  · exact h
  · exact { hbody hwf with }

theorem exec_keeps_bufOk {i : Instr} (h : Inv s) (he : exec i s = .next t) (hi : hostOpOf i ∈ bufWriters) :
    BufOk t := by
  have hbuf := bufOk_of_inv h
  have haccept : BufOk (s.accept i) := { hbuf with }
  cases i with
  | dataBlock sid off n => exact runRouted_bufOk he hbuf fun hwf => moveBlock_bufOk haccept (region_bound hwf)
  | getAddress sid off =>
    rw [exec_getAddress] at he
    exact runRouted_bufOk he hbuf fun hwf =>
      haccept.memWrite (by rw [lastAddrBytes_length]; exact region_bound hwf)
  | _ => simp [hostOpOf] at hi

/-! The step. -/

theorem exec_keeps_inv {i : Instr} (h : Inv s) (he : exec i s = .next t) : Inv t :=
  inv_of_ran h (exec_ran he) (exec_keeps_searchOk h he) (exec_keeps_tokensOk h he) (exec_keeps_bufOk h he)

/-- An attempt is a pass of a beginExclusive that has been accepted before, so it writes what that may write (R248). -/
theorem pollAttempt_keeps_inv (sid : Nat) (h : Inv s) : Inv (pollAttempt sid s) := by
  unfold pollAttempt
  split
  · rename_i hpolling
    obtain ⟨hwithin, hseq⟩ := acquirePass_within sid true s (o := some .beginExclusive) (by decide)
    exact inv_of_ran h ⟨hwithin, .inl hseq⟩ (absurd · (by decide))
      (fun _ => acquirePass_tokensOk sid true (tokensOk_of_inv h) (h.pollerHoldsNot sid hpolling)) (absurd · (by decide))
  · exact h

/-- A caller's store inside the space keeps what the invariants say of `BUF` (R319). -/
theorem memWrite_keeps_inv {addr : Nat} (b : Byte) (h : Inv s) (hin : addr < 2 ^ s.cfg.bufAw) :
    Inv (memWrite s addr [b]) :=
  have hbuf := (bufOk_of_inv h).memWrite (v := [b]) hin
  { h with
    bufWf := hbuf.wf
    bufIn := hbuf.inSpace }

/-- The reset input leaves `BUF` as it is, everything else the invariants speak of as at power-up (R301). -/
theorem resetCore_keeps_inv (h : Inv s) : Inv (resetCore s) :=
  { resetSatisfiesInvariant s.cfg h.cfgWf with
    bufWf := h.bufWf
    bufIn := h.bufIn }

/-- The invariants say nothing of what is yet to happen. -/
theorem setAgenda_keeps_inv (a : List Event) (h : Inv s) : Inv (s.setAgenda a) := { h with }

end

/-- Settles O3: a step runs an instruction or lets one event happen; an instruction owes the invariants only of the
registers it may write, and of the events an attempt, a caller's store and reset alone touch what they speak of. -/
theorem stepKeepsInvariant : Obligations.StepKeepsInvariant := by
  intro s t h hstep
  cases step_cases hstep with
  | waited ht => exact ht ▸ h
  | passed _ rest _ ht => exact ht ▸ setAgenda_keeps_inv rest h
  | host r rest i _ _ _ _ _ he =>
    have hissued : Inv (issue r rest s) := { h with }
    exact exec_keeps_inv hissued he
  | frame _ a i _ _ _ _ he => exact exec_keeps_inv (setAgenda_keeps_inv a h) he
  | attempt sid a _ ht => exact ht ▸ pollAttempt_keeps_inv sid (setAgenda_keeps_inv a h)
  | arrived _ _ _ ht => exact ht ▸ { h with }
  | streamLeft _ _ _ ht => exact ht ▸ { h with }
  | stored _ b rest _ hin ht => exact ht ▸ memWrite_keeps_inv b (setAgenda_keeps_inv rest h) hin
  | reset rest _ _ ht => exact ht ▸ resetCore_keeps_inv (setAgenda_keeps_inv rest h)

end Sys2Proof.Proofs.Invariants

/-! The boundary calls (20_memory.md R56 to R58, R63). Each primitive makes one call (`Called`); the parts of an exchange
compose theirs by `Called.trans`. -/

namespace Sys2Proof.Proofs.BoundaryCalls

open Sys2Proof Sys2Proof.Machine

/-- Exactly the boundary calls `es` were made from `s` to `t`, in this order (R63). -/
def Called (s t : State) (es : List LinkEvent) : Prop := t.tr.link = s.tr.link ++ es

theorem Called.trans {s t u : State} {es fs : List LinkEvent} (h : Called s t es) (k : Called t u fs) :
    Called s u (es ++ fs) := by
  unfold Called at *
  rw [k, h, List.append_assoc]

theorem Called.nil {s t : State} (h : t.tr = s.tr) : Called s t [] := by
  simp [Called, h]

theorem transportWrite_called (frame : List Byte) (s : State) :
    Called s (transportWrite frame s).2 [.write frame (transportWrite frame s).1] := by
  simp [Called, transportWrite, Transport.record, takeWrite_rx]

theorem transportFlush_called (s : State) : Called s (transportFlush s).2 [.flush (transportFlush s).1] := by
  simp [Called, transportFlush, Transport.record, takeFlush_rx]

theorem transportRead_called (n : Nat) (s : State) :
    Called s (transportRead n s).2 [.read n (transportRead n s).1] := by
  simp [Called, transportRead, Transport.record, takeArrival_rx]

theorem waitSettle_called (cmd : WireCmd) (s : State) : Called s (waitSettle cmd s) [.wait (settleMs s.cfg cmd)] :=
  rfl

/-- `SendRequest` flushes only after a write that succeeded (R119), and answers true exactly when both succeeded. -/
theorem sendRequest_called (ch : Byte) (cmd : WireCmd) (pay : List Byte) (n : Nat) (s : State) :
    ((sendRequest ch cmd pay n s).1 = false ∧
        (Called s (sendRequest ch cmd pay n s).2 [.write (wireFrame s.cfg ch cmd pay) false] ∨
          Called s (sendRequest ch cmd pay n s).2 [.write (wireFrame s.cfg ch cmd pay) true, .flush false])) ∨
      ((sendRequest ch cmd pay n s).1 = true ∧
        Called s (sendRequest ch cmd pay n s).2 [.write (wireFrame s.cfg ch cmd pay) true, .flush true]) := by
  have hwrite := transportWrite_called (wireFrame s.cfg ch cmd pay) (s.loadFrame ch cmd n (wireFrame s.cfg ch cmd pay))
  simp only [sendRequest]
  split
  · rename_i hok
    have hflush := transportFlush_called ((transportWrite (wireFrame s.cfg ch cmd pay)
      (s.loadFrame ch cmd n (wireFrame s.cfg ch cmd pay))).2.setPhase .flush)
    rw [hok] at hwrite
    cases hres : (transportFlush ((transportWrite (wireFrame s.cfg ch cmd pay)
        (s.loadFrame ch cmd n (wireFrame s.cfg ch cmd pay))).2.setPhase .flush)).1 with
    | false => exact .inl ⟨rfl, .inr (hwrite.trans (hres ▸ hflush))⟩
    | true => exact .inr ⟨rfl, hwrite.trans (hres ▸ hflush)⟩
  · rename_i hfail
    rw [Bool.eq_false_iff.2 hfail] at hwrite
    exact .inl ⟨rfl, .inl hwrite⟩

/-- The payload of a response is read only for a nonzero length, in one read of that length (R114). -/
theorem readPayload_called (ch status len : Byte) (s : State) :
    (len = 0 ∧ Called s (readPayload ch status len s).2 []) ∨
      (len ≠ 0 ∧ ∃ got, Called s (readPayload ch status len s).2 [.read len.toNat got]) := by
  unfold readPayload
  split
  · exact .inl ⟨‹_›, .nil rfl⟩
  · exact .inr ⟨‹_›, _, transportRead_called len.toNat (s.setPhase .rxp)⟩

/-- The reads of one response (R114): the header's, and the payload's after a whole header with a nonzero length. -/
def ResponseReads (es : List LinkEvent) : Prop :=
  (∃ hdr, es = [.read 3 hdr] ∧ (hdr.length < 3 ∨ hdr.getD 2 0 = 0)) ∨
    ∃ hdr got, es = [.read 3 hdr, .read (hdr.getD 2 0).toNat got] ∧ hdr.length = 3 ∧ hdr.getD 2 0 ≠ 0

theorem readResponse_called (s : State) : ∃ es, Called s (readResponse s).2 es ∧ ResponseReads es := by
  have hread := transportRead_called 3 (s.setPhase .rxh)
  obtain ⟨-, -, hle⟩ := transportRead_spec 3 (s.setPhase .rxh)
  unfold readResponse
  dsimp only
  split
  · rename_i ch status len hhdr
    rw [hhdr] at hread ⊢
    obtain ⟨hzero, hpay⟩ | ⟨hne, got, hpay⟩ := readPayload_called ch status len
      ((transportRead 3 (s.setPhase .rxh)).2.setRxhdr [ch, status, len])
    · exact ⟨_, hread.trans hpay, .inl ⟨_, rfl, .inr hzero⟩⟩
    · exact ⟨_, hread.trans hpay, .inr ⟨_, got, rfl, rfl, hne⟩⟩
  · rename_i hshort
    have hlt : (transportRead 3 (s.setPhase .rxh)).1.length < 3 := by
      refine Nat.lt_of_le_of_ne hle fun hlen => ?_
      obtain ⟨ch, status, len, hhdr⟩ := List.length_eq_three.1 hlen
      exact hshort ch status len hhdr
    exact ⟨_, hread, .inl ⟨_, rfl, .inl hlt⟩⟩

/-- An exchange waits and reads exactly when its request went out (R120). -/
theorem exchange_called (ch : Byte) (cmd : WireCmd) (pay : List Byte) (n : Nat) (s : State) :
    Called s (exchange ch cmd pay n s).2 [.write (wireFrame s.cfg ch cmd pay) false] ∨
      Called s (exchange ch cmd pay n s).2 [.write (wireFrame s.cfg ch cmd pay) true, .flush false] ∨
      ∃ reads, ResponseReads reads ∧ Called s (exchange ch cmd pay n s).2
        ([.write (wireFrame s.cfg ch cmd pay) true, .flush true, .wait (settleMs s.cfg cmd)] ++ reads) := by
  obtain ⟨hfail, hsend⟩ | ⟨hok, hsend⟩ := sendRequest_called ch cmd pay n s
  · have htr : (exchange ch cmd pay n s).2.tr = (sendRequest ch cmd pay n s).2.tr := by
      simp [exchange, hfail]
    unfold Called at hsend ⊢
    rw [htr]
    exact hsend.imp_right .inl
  · have hwait := waitSettle_called cmd (sendRequest ch cmd pay n s).2
    rw [(sendRequest_spec ch cmd pay n s).1.cfg] at hwait
    obtain ⟨reads, hread, hshape⟩ := readResponse_called (waitSettle cmd (sendRequest ch cmd pay n s).2)
    have htr : (exchange ch cmd pay n s).2.tr =
        (readResponse (waitSettle cmd (sendRequest ch cmd pay n s).2)).2.tr := by
      simp only [exchange, hok, if_true]
      split <;> rfl
    refine .inr (.inr ⟨reads, hshape, ?_⟩)
    have hall := (hsend.trans hwait).trans hread
    unfold Called at hall ⊢
    rw [htr]
    exact hall

/-- Settles O53: the calls of the request, of the wait and of the response, put together. -/
theorem exchangeCallsAreInOrder : Obligations.ExchangeCallsAreInOrder := by
  intro s ch cmd pay explen
  obtain hcalled | hcalled | ⟨_, ⟨hdr, rfl, hend⟩ | ⟨hdr, got, rfl, hwhole⟩, hcalled⟩ :=
    exchange_called ch cmd pay explen s
  · exact ⟨_, hcalled, .inl rfl⟩
  · exact ⟨_, hcalled, .inr (.inl rfl)⟩
  · exact ⟨_, hcalled, .inr (.inr (.inl ⟨hdr, rfl, hend⟩))⟩
  · exact ⟨_, hcalled, .inr (.inr (.inr ⟨hdr, got, rfl, hwhole⟩))⟩

end Sys2Proof.Proofs.BoundaryCalls

/-! The buffer space (20_memory.md R50, R51): a run written is the run read back. -/

namespace Sys2Proof.Proofs.BufferSpace

open Sys2Proof Sys2Proof.Machine

@[simp] theorem memRead_length (s : State) (addr n : Nat) : (memRead s addr n).length = n := by
  simp [memRead]

@[simp] theorem memRead_getElem (s : State) (addr n j : Nat) (h : j < (memRead s addr n).length) :
    (memRead s addr n)[j] = Memory.read s.buf (addr + j) := by
  simp [memRead]

theorem read_memWrite_inside {s : State} (h : Memory.wf s.buf = true) {addr j : Nat} {v : List Byte}
    (hj : j < v.length) : Memory.read (memWrite s addr v).buf (addr + j) = v[j] := by
  rw [memWrite, setBuf_buf, Memory.read_writeList v s.buf addr _ h, if_pos ⟨Nat.le_add_right .., by omega⟩,
    Nat.add_sub_cancel_left, List.getD_eq_getElem _ _ hj]

theorem read_memWrite_outside {s : State} (h : Memory.wf s.buf = true) {addr a : Nat} {v : List Byte}
    (ha : a < addr ∨ addr + v.length ≤ a) : Memory.read (memWrite s addr v).buf a = Memory.read s.buf a := by
  rw [memWrite, setBuf_buf, Memory.read_writeList v s.buf addr _ h, if_neg (by omega)]

theorem memRead_memWrite {s : State} (h : Memory.wf s.buf = true) (addr : Nat) (v : List Byte) :
    memRead (memWrite s addr v) addr v.length = v := by
  refine List.ext_getElem (memRead_length ..) fun j _ hj => ?_
  rw [memRead_getElem, read_memWrite_inside h hj]

/-- Settles O49: by what a byte inside and a byte outside the run read as after the write. -/
theorem bufferReadsBackWhatWasWritten : Obligations.BufferReadsBackWhatWasWritten := fun s addr v h =>
  ⟨memRead_memWrite h addr v, fun _ ha => read_memWrite_outside h ha, memWrite_wf s addr v h⟩

end Sys2Proof.Proofs.BufferSpace

/-! What a step takes (10_state.md R28, 20_memory.md R66, 30_encoding.md R96): a host request that is served, or the
frame in the sequencer's buffers. -/

namespace Sys2Proof.Proofs.StepFetch

open Sys2Proof Sys2Proof.Machine

section

variable {s : State} {r : HostRequest} {rest a : List Event} {e : Encoded} {i : Instr}

/-- A host request is fetched if the arbiter takes it at once or the sequencer is in `PH_IDLE`. -/
theorem fetchWord_request (ha : s.agenda = .request r :: rest)
    (h : (arbiterAsked r s).isSome = true ∨ s.seq.phase = .idle) : fetchWord s = some (.host r) := by
  simp only [fetchWord, ha]
  rw [if_pos (by simpa using h)]

theorem step_request (ha : s.agenda = .request r :: rest) : step s = serveRequest r rest s := by
  simp only [step, stepBody, ha]

/-- The arbiter's request is run at once, in whatever phase the sequencer is (R96, R240). -/
theorem serveRequest_of_arbiterAsked (h : arbiterAsked r s = some i) :
    serveRequest r rest s = exec i (issue r rest s) := by
  simp only [serveRequest, h]

/-- A legal request of a session that does not poll is run while the sequencer is free (R96). -/
theorem takeRequest_accepted (hs : (s.session r.sid).astate = .idle) (hd : decodeHost r = .ok i)
    (hw : wellFormed s.cfg i = true) (hb : s.seq.busy = false) :
    takeRequest r rest s = exec i (issue r rest s) := by
  simp [takeRequest, hs, hd, hw, hb]

/-- In `PH_IDLE` the arbiter and the sequencer take a legal request alike. -/
theorem serveRequest_accepted (hs : (s.session r.sid).astate = .idle) (hd : decodeHost r = .ok i)
    (hw : wellFormed s.cfg i = true) (hp : s.seq.phase = .idle) (hb : s.seq.busy = false) :
    serveRequest r rest s = exec i (issue r rest s) := by
  cases hasked : arbiterAsked r s with
  | some j =>
    obtain ⟨hj, -⟩ := arbiterAsked_eq_some.1 hasked
    cases hd.symm.trans hj
    exact serveRequest_of_arbiterAsked hasked
  | none =>
    simp only [serveRequest, hasked, hp, if_true]
    exact takeRequest_accepted hs hd hw hb

theorem serveFrame_of_decode (hd : decode s.cfg e = .ok i) : serveFrame e s = exec i s := by
  simp only [serveFrame, hd]

theorem frameWord_tx (hp : s.seq.phase = .tx) : frameWord s = some (.request s.seq.txbuf) := by
  simp only [frameWord, hp]

theorem frameWord_check (hp : s.seq.phase = .check) :
    frameWord s = some (.response (s.seq.rxhdr ++ s.seq.rxpay)) := by
  simp only [frameWord, hp]

/-- The sequencer's own step serves the frame in its buffers. -/
theorem sequencerStep_of_frameWord (h : frameWord s = some e) : sequencerStep s = serveFrame e s := by
  unfold frameWord at h
  split at h <;> cases h <;> simp only [sequencerStep, *]

/-- On the sequencer's turn its frame is fetched, and the instruction it decodes to is run. -/
theorem sequencersTurn_runs (hturn : SequencersTurn s a) (hf : frameWord s = some e)
    (hd : decode s.cfg e = .ok i) : fetchWord s = some e ∧ step s = exec i (s.setAgenda a) := by
  have hp : s.seq.phase ≠ .idle := fun hidle => by simp [frameWord, hidle] at hf
  obtain ⟨hstep, hfetch⟩ := SequencersTurn.step hp hturn
  have hrun : sequencerStep (s.setAgenda a) = exec i (s.setAgenda a) :=
    (sequencerStep_of_frameWord (s := s.setAgenda a) hf).trans (serveFrame_of_decode hd)
  exact ⟨hfetch.trans hf, hstep.trans hrun⟩

end

/-- Settles O5: the host request by who takes it, the sequencer's frame by its phase. -/
theorem stepRunsDecodedInstruction : Obligations.StepRunsDecodedInstruction := by
  refine ⟨fun s r rest i ha hd hw hs htaken => ?_,
    fun s a i hp hturn hd => sequencersTurn_runs hturn (frameWord_tx hp) hd,
    fun s a i hp hturn hd => sequencersTurn_runs hturn (frameWord_check hp) hd⟩
  rw [step_request ha]
  obtain ⟨hp, hb⟩ | harbiter := htaken
  · exact ⟨fetchWord_request ha (.inr hp), serveRequest_accepted hs hd hw hp hb⟩
  · have hasked : arbiterAsked r s = some i := arbiterAsked_eq_some.2 ⟨hd, harbiter, hw, hs⟩
    exact ⟨fetchWord_request ha (.inl (by rw [hasked]; rfl)), serveRequest_of_arbiterAsked hasked⟩

end Sys2Proof.Proofs.StepFetch

/-! Transfers whose exchange fails (43_transfer_engine.md R190). A transfer's body surfaces the error of its one routed
exchange; what the session is told and what stays as it was follow from that alone, whatever the transfer. -/

namespace Sys2Proof.Proofs.FailingTransfers

open Sys2Proof Sys2Proof.Machine Sys2Proof.Proofs.RegisterWriters

/-- `r` is what a body run from `u` ends with that, whatever error its exchange gives, reports that error under the kind
that `kind` says and changes nothing after the exchange. -/
def Surfaces (r : Verdict × State) (cmd : WireCmd) (pay : List Byte) (n : Nat) (kind : Cause → ErrKind) (u : State) :
    Prop :=
  ∀ cause info, (route1 cmd pay n u).1 = .err cause info →
    r = (.err (kind cause) cause info, (route1 cmd pay n u).2)

theorem transfer_surfaces {cmd : WireCmd} {pay : List Byte} {n : Nat} {onOk : List Byte → Verdict} {onSkip : Verdict}
    {u : State} : Surfaces (transfer cmd pay n onOk onSkip u) cmd pay n kindOf u := by
  intro cause info herr
  simp only [transfer, herr, transferVerdict, raise]

theorem moveBlock_surfaces {off n : Nat} {u : State} :
    Surfaces (moveBlock off n u) .dataBlock (memRead u off n) n kindOf u := by
  intro cause info herr
  simp only [moveBlock, herr, raise]

/-- reset reports every cause as a communication error (R197, 90_conflicts.md C7). -/
theorem resetVerdict_surfaces {cmd : WireCmd} {pay : List Byte} {n : Nat} {u : State} :
    Surfaces (resetVerdict (route1 cmd pay n u).1, (route1 cmd pay n u).2) cmd pay n (fun _ => .communication) u := by
  intro cause info herr
  simp only [herr, resetVerdict]

/-- What a transfer that fails leaves alone. -/
abbrev FailureKept (sid : Nat) (s t : State) : Prop :=
  t.log = s.log ∧ SameSearch s t ∧ SameMemory s t ∧ SameTokens s t ∧ SameOthers sid s t ∧ SamePort s t ∧ Idle t

/-- Ending an operation after traffic changes nothing but the ready table, the session's result and the sequencer. -/
theorem failureKept_deliver {i : Instr} {sid : Nat} {s u : State} (v : Verdict) (h : Traffic (s.accept i) u) :
    FailureKept sid s (deliver sid v u).goIdle := by
  have hsession (x : Nat) : u.session x = s.session x := h.session x
  refine ⟨h.log, ⟨h.cursor, h.lastAddr, h.addrValid, h.sstate⟩, fun a => congrArg (Memory.read · a) h.buf,
    ⟨h.excl, fun x => ?_⟩, fun x hx => (deliver_session_ne sid x v u hx).trans (hsession x),
    ⟨h.cfg, h.hreq, h.agenda⟩, rfl, rfl⟩
  obtain ⟨hholds, hastate⟩ := deliver_tokens sid x v u
  exact ⟨hholds.trans (congrArg Session.holds (hsession x)), hastate.trans (congrArg Session.astate (hsession x))⟩

theorem resultErr_deliver {sid : Nat} {u : State} (kind : ErrKind) (cause : Cause) (info : BitVec 16)
    (h : sid < u.sessions.length) : ResultErr (deliver sid (.err kind cause info) u).goIdle sid kind cause info := by
  simp only [ResultErr, goIdle_session, deliver_session sid _ u h, resultOf, freeResult, and_self]

/-- A routed operation whose body surfaces the error of its exchange reports it, and does nothing else to the state than
the exchange has done (R190, R270). -/
theorem runRouted_surfaces {i : Instr} {sid : Nat} {s : State} {body : State → Verdict × State} {cmd : WireCmd}
    {pay : List Byte} {n : Nat} {kind : Cause → ErrKind} {cause : Cause} {info : BitVec 16} (hacc : Accepted s i sid)
    (hbody : Surfaces (body (s.accept i)) cmd pay n kind (s.accept i))
    (herr : (route1 cmd pay n (s.accept i)).1 = .err cause info) :
    ∃ t, runRouted i sid body s = .next t ∧ ResultErr t sid (kind cause) cause info ∧
      t.tr = (route1 cmd pay n (s.accept i)).2.tr ∧ t.ready = (route1 cmd pay n (s.accept i)).2.ready ∧
      FailureKept sid s t := by
  obtain ⟨hwf, hfree, hsid⟩ := hacc
  obtain ⟨htraffic, -⟩ := route1_spec cmd pay n (s.accept i)
  refine ⟨_, runRouted_accepted hwf hfree, ?_⟩
  rw [hbody cause info herr]
  exact ⟨resultErr_deliver _ _ _ (by rw [htraffic.sessions]; exact hsid), rfl, rfl, failureKept_deliver _ htraffic⟩

/-- A failing exchange takes the cursor's channel out of service on a communication error with the downgrade on, and not
otherwise (R121, R162). -/
theorem route1_fails_ready {s : State} {cmd : WireCmd} {pay : List Byte} {n : Nat} {cause : Cause} {info : BitVec 16}
    (h : (route1 cmd pay n s).1 = .err cause info) : (route1 cmd pay n s).2.ready =
      (if s.cfg.downgrade = true ∧ kindOf cause = .communication then s.ready.set s.cursor false else s.ready) := by
  unfold route1 at h ⊢
  split
  · rename_i hready
    rw [if_pos hready] at h
    obtain ⟨-, -, hset⟩ := exchangeCh_fails (s := s) rfl rfl (Prod.ext h rfl)
    exact hset
  · rename_i hready
    rw [if_neg hready] at h
    cases h

theorem route1_silent {s : State} {cmd : WireCmd} {pay : List Byte} {n : Nat} (hready : s.readyAt s.cursor = true)
    (h : StaysSilent s) : (route1 cmd pay n s).1 = .err .shortHeader 0 := by
  rw [route1, if_pos hready]
  exact exchange_silent h

/-- A silent device ends a routed operation that surfaces errors with `ShortHeader` and the downgrade (R114, R121). -/
theorem runRouted_silent {i : Instr} {sid : Nat} {s : State} {body : State → Verdict × State} {cmd : WireCmd}
    {pay : List Byte} {n : Nat} {kind : Cause → ErrKind} (hacc : Accepted s i sid)
    (hready : s.readyAt s.cursor = true) (hsilent : StaysSilent s)
    (hbody : Surfaces (body (s.accept i)) cmd pay n kind (s.accept i))
    (hkind : kind .shortHeader = .communication) :
    ∃ t, runRouted i sid body s = .next t ∧ ResultErr t sid .communication .shortHeader 0 ∧
      t.ready = (if s.cfg.downgrade then s.ready.set s.cursor false else s.ready) ∧ FailureKept sid s t := by
  have herr : (route1 cmd pay n (s.accept i)).1 = .err .shortHeader 0 := route1_silent hready hsilent
  obtain ⟨t, hrun, hresult, -, ht, hkept⟩ := runRouted_surfaces hacc hbody herr
  refine ⟨t, hrun, hkind ▸ hresult, ?_, hkept⟩
  rw [ht, route1_fails_ready herr]
  simp only [kindOf, and_true, accept_cfg, accept_ready, accept_cursor]

/-- Settles O29: each of the seven surfaces the error of its exchange, and both `kindOf` and reset call `ShortHeader` a
communication error. -/
theorem silenceIsSurfacedAndDowngrades : Obligations.SilenceIsSurfacedAndDowngrades := by
  intro s sid off v b i hi hacc hready hsilent
  simp only [List.mem_cons, List.not_mem_nil, or_false] at hi
  obtain rfl | rfl | rfl | rfl | rfl | rfl | rfl := hi
  · exact runRouted_silent hacc hready hsilent transfer_surfaces rfl
  · exact runRouted_silent hacc hready hsilent transfer_surfaces rfl
  · exact runRouted_silent hacc hready hsilent transfer_surfaces rfl
  · exact runRouted_silent hacc hready hsilent transfer_surfaces rfl
  · exact runRouted_silent hacc hready hsilent transfer_surfaces rfl
  · exact runRouted_silent hacc hready hsilent moveBlock_surfaces rfl
  · rw [exec_reset]
    exact runRouted_silent hacc hready hsilent resetVerdict_surfaces rfl

end Sys2Proof.Proofs.FailingTransfers

/-! What the decoder accepts (30_encoding.md R80, R81, R90, 40_frame_codec.md R111, R113). Each layer of the decoder is
inverted once: a frame that is cut off the front of a stream is the frame that encodes its parts, a code that is found is
the code of what is found, and a payload that a command accepts is the payload that the encoder writes. -/

namespace Sys2Proof.Proofs.DecodedWords

open Sys2Proof Sys2Proof.Machine Sys2Proof.Proofs.DecodeEncode

/-! Frames. -/

/-- A payload cut off by its length byte has the length that byte says (R89). -/
theorem byteOf_length_take {len : Byte} {tail : List Byte} (h : ¬tail.length < len.toNat) :
    byteOf (tail.take len.toNat).length = len := by
  rw [List.length_take, Nat.min_eq_left (Nat.le_of_not_lt h)]
  exact BitVec.ofNat_toNat 8 len

theorem eq_encodeRequest_of_decodeRequest {c : Config} {bytes : List Byte} {ch cmdbyte : Byte} {pay rest : List Byte}
    (h : decodeRequest c bytes = .request ch cmdbyte pay rest) :
    bytes = encodeRequest c ch cmdbyte pay ++ rest := by
  unfold decodeRequest at h
  split at h
  · split at h
    · cases h
    · rename_i hmarker
      split at h
      · cases h
      · rename_i hlen
        cases h
        simp [encodeRequest, not_ne_iff.1 hmarker, byteOf_length_take hlen, -List.length_take]
  · cases h

theorem eq_encodeResponse_of_decodeResponse {bytes : List Byte} {ch status : Byte} {pay rest : List Byte}
    (h : decodeResponse bytes = .response ch status pay rest) : bytes = encodeResponse ch status pay ++ rest := by
  unfold decodeResponse at h
  split at h
  · split at h
    · cases h
    · rename_i hlen
      cases h
      simp [encodeResponse, byteOf_length_take hlen, -List.length_take]
  · cases h

/-! Codes. -/

theorem get_of_cmdOfByte {c : Config} {b : Byte} {cmd : WireCmd} (h : cmdOfByte c b = some cmd) :
    c.opc.get cmd = b := by
  simpa using List.find?_some h

/-- A host request decodes exactly if its code is that of an operation, and then to that operation on its fields. -/
theorem decodeHost_eq_ok {r : HostRequest} {i : Instr} :
    decodeHost r = .ok i ↔ ∃ op : HostOp, r.op = op.code ∧ i = hostInstr op r := by
  constructor
  · intro h
    cases ho : hostOpOfCode r.op with
    | none => simp only [decodeHost, ho] at h; cases h
    | some op =>
      have hcode : op.code = r.op := by simpa using List.find?_some ho
      simp only [decodeHost, ho, Except.ok.injEq] at h
      exact ⟨op, hcode.symm, h.symm⟩
  · rintro ⟨op, hop, rfl⟩
    simp only [decodeHost, hop, hostOpOfCode_code]

/-! The payload shapes of R130. -/

section

variable {pay : List Byte} {i j : Instr}

theorem noPayload_ok (h : noPayload pay i = .ok j) : pay = [] ∧ j = i := by
  cases pay <;> cases h
  exact ⟨rfl, rfl⟩

theorem onePayload_ok {f : Byte → Except DecodeError Instr} (h : onePayload pay f = .ok j) :
    ∃ b, pay = [b] ∧ f b = .ok j := by
  unfold onePayload at h
  split at h
  · exact ⟨_, rfl, h⟩
  · cases h

theorem addrBytes_of_addrOfBytes {a : DevAddr} (h : addrOfBytes pay = some a) : pay = addrBytes a := by
  unfold addrOfBytes at h
  split at h <;> cases h
  rfl

theorem addrPayload_ok {f : DevAddr → Instr} (h : addrPayload pay f = .ok j) : ∃ a, pay = addrBytes a ∧ j = f a := by
  unfold addrPayload at h
  split at h
  · cases h
    exact ⟨_, addrBytes_of_addrOfBytes ‹_›, rfl⟩
  · cases h

theorem bitPayload_ok {ch b : Byte} (h : bitPayload ch b = .ok j) : ∃ v, b = bool8 v ∧ j = .cmdPutBit ch v := by
  unfold bitPayload at h
  split at h
  · cases h
    exact ⟨true, ‹_›, rfl⟩
  · split at h
    · cases h
      exact ⟨false, ‹_›, rfl⟩
    · cases h

/-- A command, a channel and a payload that make an instruction make its frame (R110, R130). -/
theorem encode_of_decodeWire {cmd : WireCmd} {ch : Byte} (c : Config) (h : decodeWire cmd ch pay = .ok i) :
    encode c i = .request (wireFrame c ch cmd pay) := by
  cases cmd with
  | pingChannel | findFirst | findNext | getAddress | setSearchOnlyAlarming | setNoResetSearch | setSearchAll | getByte
  | reset | targetAllFamilies =>
    obtain ⟨rfl, rfl⟩ := noPayload_ok h
    rfl
  | getBlock | putByte | targetFamily =>
    obtain ⟨b, rfl, hb⟩ := onePayload_ok h
    cases hb
    rfl
  | putBit =>
    obtain ⟨b, rfl, hb⟩ := onePayload_ok h
    obtain ⟨v, rfl, rfl⟩ := bitPayload_ok hb
    rfl
  | dataBlock | setPowerNormal =>
    cases h
    rfl
  | searchRom | matchRom =>
    obtain ⟨a, rfl, rfl⟩ := addrPayload_ok h
    rfl

end

/-! The three formats. -/

section

variable {c : Config} {i : Instr} {bytes : List Byte}

theorem encode_of_decode_request (h : decode c (.request bytes) = .ok i) :
    ∃ body rest, encode c i = .request body ∧ bytes = body ++ rest := by
  simp only [decode, decodeRequestFrame] at h
  split at h
  · cases h
  · cases h
  · rename_i ch cmdbyte pay rest hframe
    split at h
    · cases h
    · rename_i cmd hcmd
      refine ⟨wireFrame c ch cmd pay, rest, encode_of_decodeWire c h, ?_⟩
      rw [wireFrame, get_of_cmdOfByte hcmd]
      exact eq_encodeRequest_of_decodeRequest hframe

/-- A response's class is told by its status byte, so the encoder writes that byte again (R86). -/
theorem encode_of_decode_response (h : decode c (.response bytes) = .ok i) :
    ∃ body rest, encode c i = .response body ∧ bytes = body ++ rest := by
  simp only [decode, decodeResponseFrame] at h
  split at h
  · cases h
  · cases h
  · rename_i ch status pay rest hframe
    refine ⟨encodeResponse ch status pay, rest, ?_, eq_encodeResponse_of_decodeResponse hframe⟩
    split at h
    · rename_i hsuccess
      cases h
      rw [hsuccess]
      rfl
    · split at h
      · rename_i hfailure
        cases h
        rw [hfailure]
        rfl
      · cases h
        rfl

end

/-- Encoding a host operation keeps its code, its session and the fields it reads; the others become zero (R97 g). -/
theorem encode_hostInstr (c : Config) (op : HostOp) (r : HostRequest) :
    ∃ r', encode c (hostInstr op r) = .host r' ∧ r'.op = op.code ∧ r'.sid = r.sid ∧
      decodeHost r' = .ok (hostInstr op r) := by
  cases op <;> exact ⟨_, rfl, rfl, rfl, by simp only [blankRequest, decodeHost_code, hostInstr, val8Bit_bool8]⟩

/-- Settles O10: by the format of the word. -/
theorem decodedWordsAreEncodings : Obligations.DecodedWordsAreEncodings := by
  intro c i
  refine ⟨fun _ h => encode_of_decode_request h, fun _ h => encode_of_decode_response h, fun r h => ?_⟩
  obtain ⟨op, hop, rfl⟩ := decodeHost_eq_ok.1 h
  obtain ⟨r', hencode, hop', hsid, hdecode⟩ := encode_hostInstr c op r
  exact ⟨r', hencode, hop'.trans hop.symm, hsid, hdecode⟩

/-- Settles O8: the words are literals, and the decoder is evaluated on each. -/
theorem sampleWordsDecode : Obligations.SampleWordsDecode := by
  refine ⟨?_, ?_, ?_, ?_, ?_, ?_, ?_, ?_, ?_⟩ <;> decide

end Sys2Proof.Proofs.DecodedWords

/-! A request at the host port that is not served as a routed operation (30_encoding.md R96, R97): one that is no legal
one is dropped, a routed one waits while the sequencer is busy, and the arbiter's is taken whatever the sequencer does. -/

namespace Sys2Proof.Proofs.HostPort

open Sys2Proof Sys2Proof.Machine Sys2Proof.Proofs.DecodedWords Sys2Proof.Proofs.StepFetch
open Sys2Proof.Proofs.Invariants

section

variable {s t u : State} {r : HostRequest} {rest : List Event} {i : Instr} {sid : Nat}

/-! Requests that are no legal ones (R97 a and b). -/

/-- The request names no operation, or one whose operands are out of range. -/
def Illegal (c : Config) (r : HostRequest) : Prop := ∀ i, decodeHost r = .ok i → wellFormed c i = false

theorem Illegal.arbiterAsked (h : Illegal s.cfg r) : arbiterAsked r s = none := by
  refine Option.eq_none_iff_forall_ne_some.2 fun i hasked => ?_
  obtain ⟨hd, -, hw, -⟩ := arbiterAsked_eq_some.1 hasked
  exact Bool.noConfusion ((h i hd).symm.trans hw)

theorem takeRequest_illegal (h : Illegal s.cfg r) (hs : (s.session r.sid).astate = .idle) :
    takeRequest r rest s = .next (s.setAgenda rest) := by
  cases hd : decodeHost r with
  | error e => simp [takeRequest, hs, hd]
  | ok i => simp [takeRequest, hs, hd, h i hd]

theorem step_illegal (ha : s.agenda = .request r :: rest) (hp : s.seq.phase = .idle)
    (hs : (s.session r.sid).astate = .idle) (h : Illegal s.cfg r) : step s = .next (s.setAgenda rest) := by
  rw [step_request ha]
  simp only [serveRequest, h.arbiterAsked, hp, if_true]
  exact takeRequest_illegal h hs

theorem hostOp_code_lt (op : HostOp) : op.code.toNat < 22 := by cases op <;> decide

theorem illegal_of_reserved {c : Config} (h : 22 ≤ r.op.toNat) : Illegal c r := by
  intro i hd
  obtain ⟨op, hop, -⟩ := decodeHost_eq_ok.1 hd
  exact absurd (hop ▸ hostOp_code_lt op) (Nat.not_lt_of_le h)

/-- A request with an operation's code is legal only as that operation is. -/
theorem illegal_of_code {c : Config} {op : HostOp} (hop : r.op = op.code)
    (h : ¬wellFormed c (hostInstr op r) = true) : Illegal c r := by
  intro i hd
  cases hd.symm.trans (decodeHost_eq_ok.2 ⟨op, hop, rfl⟩)
  exact Bool.eq_false_iff.2 h

/-! The frame in the sequencer's buffers. -/

/-- What decodes from the sequencer's buffers is no host operation: its encoding is a frame. -/
theorem hostOpOf_eq_none_of_encode {c : Config} (h : ∀ r, encode c i ≠ .host r) : hostOpOf i = none := by
  cases i with
  | selectPort | freePort | adapterDetected | findFirstDevice | findNextDevice | getAddress | isPresent | select | reset
  | putBit | getBit | putByte | getByte | getBlock | dataBlock | setSearchOnlyAlarmingDevices | setNoResetSearch
  | setSearchAllDevices | targetFamily | targetAllFamilies | beginExclusive | endExclusive => exact absurd rfl (h _)
  | _ => rfl

theorem hostOpOf_eq_none_of_frame {e : Encoded} (he : frameWord s = some e) (hd : decode s.cfg e = .ok i) :
    hostOpOf i = none := by
  unfold frameWord at he
  split at he <;> cases he
  · obtain ⟨body, -, hencode, -⟩ := encode_of_decode_request hd
    exact hostOpOf_eq_none_of_encode fun r hr => Encoded.noConfusion (hencode.symm.trans hr)
  · obtain ⟨body, -, hencode, -⟩ := encode_of_decode_response hd
    exact hostOpOf_eq_none_of_encode fun r hr => Encoded.noConfusion (hencode.symm.trans hr)

/-- `t` is `s` after traffic, with the sequencer then free. -/
def TrafficThenIdle (s t : State) : Prop := ∃ u, Traffic s u ∧ t = u.goIdle

theorem endExchange_traffic (s : State) (v : XRes) : Traffic s (s.endExchange v) := .setSeq s _ rfl

theorem runWire_traffic {ch : Byte} {cmd : WireCmd} {pay : List Byte} (h : runWire i ch cmd pay s = .next t) :
    TrafficThenIdle s t := by
  unfold runWire at h
  split at h <;> cases h
  · exact ⟨_, (exchangeCh_spec ..).1, rfl⟩
  · exact ⟨_, endExchange_traffic s _, rfl⟩

theorem execCmdPingChannel_traffic {ch : Byte} (h : execCmdPingChannel ch s = .next t) : TrafficThenIdle s t := by
  unfold execCmdPingChannel at h
  split at h <;> cases h
  · exact ⟨_, (exchange_spec ..).1, rfl⟩
  · exact ⟨_, endExchange_traffic s _, rfl⟩

theorem checkResponse_traffic {ch status : Byte} {pay : List Byte} (h : checkResponse ch status pay s = .next t) :
    TrafficThenIdle s t := by
  unfold checkResponse at h
  cases h
  refine ⟨_, ?_, rfl⟩
  split
  · exact endExchange_traffic s _
  · exact (endExchange_traffic s _).trans (downgradeOn_spec ..).1

/-- A wire command or a response is traffic, after which the sequencer is free. -/
theorem exec_traffic (hi : hostOpOf i = none) (h : exec i s = .next t) : TrafficThenIdle s t := by
  cases i with
  | cmdPingChannel => exact execCmdPingChannel_traffic h
  | cmdFindFirst | cmdFindNext | cmdGetAddress | cmdSetSearchOnlyAlarming | cmdSetNoResetSearch | cmdSetSearchAll
  | cmdPutBit | cmdGetByte | cmdGetBlock | cmdDataBlock | cmdReset | cmdPutByte | cmdTargetFamily
  | cmdTargetAllFamilies | cmdSearchRom | cmdMatchRom => exact runWire_traffic h
  | cmdSetPowerNormal => cases h
  | respSuccess | respFailure | respOther => exact checkResponse_traffic h
  | _ => simp [hostOpOf] at hi

/-- While the sequencer is busy, a step with a request the arbiter does not take at the head of the agenda is the
sequencer's, and so traffic (R96). -/
theorem step_traffic_of_waiting (ha : s.agenda = .request r :: rest) (hp : s.seq.phase ≠ .idle)
    (hasked : arbiterAsked r s = none) (h : step s = .next t) : TrafficThenIdle s t := by
  have hturn : SequencersTurn s s.agenda := .inr (.inr ⟨r, rest, ha, hasked, rfl⟩)
  obtain ⟨hstep, -⟩ := hturn.step hp
  obtain ⟨e, i, he, hd, hexec⟩ := sequencerStep_next hp (hstep.symm.trans h)
  exact exec_traffic (hostOpOf_eq_none_of_frame he hd) hexec

/-! The arbiter's operations (R242, R243). -/

/-- The arbiter has touched nothing but session `sid`, the transport's flag and the counter of free values. -/
def Arbitrated (sid : Nat) (s t : State) : Prop :=
  (∃ sessions excl draws, t = { s with sessions := sessions, excl := excl, draws := draws }) ∧ SameOthers sid s t

theorem Arbitrated.trans (h : Arbitrated sid s t) (k : Arbitrated sid t u) : Arbitrated sid s u := by
  obtain ⟨⟨_, _, _, rfl⟩, hothers⟩ := h
  obtain ⟨⟨_, _, _, rfl⟩, kothers⟩ := k
  exact ⟨⟨_, _, _, rfl⟩, fun x hx => (kothers x hx).trans (hothers x hx)⟩

theorem Arbitrated.setExcl (sid : Nat) (s : State) (b : Bool) : Arbitrated sid s (s.setExcl b) :=
  ⟨⟨_, _, _, rfl⟩, fun _ _ => rfl⟩

theorem Arbitrated.updSession (sid : Nat) (s : State) (f : Session → Session) :
    Arbitrated sid s (s.updSession sid f) :=
  ⟨⟨_, _, _, rfl⟩, fun x hx => updSession_session_ne s sid x f hx.symm⟩

theorem Arbitrated.deliver (sid : Nat) (v : Verdict) (s : State) : Arbitrated sid s (deliver sid v s) :=
  ⟨⟨_, _, _, rfl⟩, fun x hx => deliver_session_ne sid x v s hx⟩

theorem acquirePass_arbitrated (sid : Nat) (blocking : Bool) (s : State) :
    Arbitrated sid s (acquirePass sid blocking s) := by
  unfold acquirePass transportTryAcquire
  cases s.excl with
  | true =>
    cases blocking with
    | true => exact .updSession sid s _
    | false => exact .deliver sid _ s
  | false => exact ((Arbitrated.setExcl sid s true).trans (.updSession sid _ _)).trans (.deliver sid _ _)

theorem beginExclusive_arbitrated (sid : Nat) (blocking : Bool) (s : State) :
    Arbitrated sid s (beginExclusive sid blocking s) := by
  unfold beginExclusive
  split
  · exact .deliver sid _ s
  · exact acquirePass_arbitrated sid blocking s

theorem endExclusive_arbitrated (sid : Nat) (s : State) : Arbitrated sid s (endExclusive sid s) := by
  unfold endExclusive
  split
  · exact ((Arbitrated.setExcl sid s false).trans (.updSession sid _ _)).trans (.deliver sid _ _)
  · exact .deliver sid _ s

theorem runArbiter_accepted {body : State → State} (hw : wellFormed s.cfg i = true) :
    runArbiter i body s = .next (body s) := if_pos hw

/-- A legal request for the arbiter is issued and served in one step, whatever the sequencer does (R96, R240). -/
theorem step_arbiter (hcode : r.op = 20 ∨ r.op = 21) (ha : s.agenda = .request r :: rest)
    (hsid : r.sid < s.cfg.nSessions) (hs : (s.session r.sid).astate = .idle) :
    ∃ t, step s = .next t ∧ Arbitrated r.sid (issue r rest s) t := by
  have hsession : sessionOk s.cfg r.sid = true := decide_eq_true hsid
  rw [step_request ha]
  obtain hop | hop := hcode
  · have hd := decodeHost_eq_ok.2 ⟨.beginExclusive, hop, rfl⟩
    rw [serveRequest_of_arbiterAsked (arbiterAsked_eq_some.2 ⟨hd, rfl, hsession, hs⟩)]
    exact ⟨_, runArbiter_accepted hsession, beginExclusive_arbitrated ..⟩
  · have hd := decodeHost_eq_ok.2 ⟨.endExclusive, hop, rfl⟩
    rw [serveRequest_of_arbiterAsked (arbiterAsked_eq_some.2 ⟨hd, rfl, hsession, hs⟩)]
    exact ⟨_, runArbiter_accepted hsession, endExclusive_arbitrated ..⟩

end

/-- Settles O6: a reserved code names no operation, and a region past the end of `BUF` is out of its operation's range. -/
theorem illegalRequestsHaveNoEffect : Obligations.IllegalRequestsHaveNoEffect := by
  intro s r rest hp ha hs hillegal
  refine step_illegal ha hp hs ?_
  obtain hreserved | ⟨hop, hpast⟩ | ⟨hop, hpast⟩ := hillegal
  · exact illegal_of_reserved hreserved
  · exact illegal_of_code (op := .getAddress) hop fun hw => Nat.not_le_of_lt hpast (region_bound hw)
  · exact illegal_of_code (op := .dataBlock) hop fun hw => Nat.not_le_of_lt hpast (region_bound hw)

/-- Settles O7: a request that waits sees only traffic, which touches no session and no port; the arbiter's own is served
apart from the sequencer. -/
theorem routedRequestsWaitWhileBusy : Obligations.RoutedRequestsWaitWhileBusy := by
  intro s r rest hinv hbusy ha
  have hp : s.seq.phase ≠ .idle := fun hidle => Bool.noConfusion (hbusy.symm.trans (hinv.busyPhase.2 hidle))
  constructor
  · intro t h20 h21 hstep
    obtain ⟨u, htraffic, rfl⟩ := step_traffic_of_waiting ha hp (arbiterAsked_routed h20 h21) hstep
    exact ⟨htraffic.agenda, htraffic.hreq, htraffic.sessions, htraffic.draws⟩
  · intro hcode hsid hs
    obtain ⟨_, hstep, ⟨_, _, _, rfl⟩, hothers⟩ := step_arbiter hcode ha hsid hs
    exact ⟨_, hstep, rfl, rfl, rfl, rfl, rfl, rfl, ⟨rfl, rfl, rfl, rfl⟩, fun _ => rfl, hothers⟩

end Sys2Proof.Proofs.HostPort

/-! The exchange (40_frame_codec.md): the codec's round trips (R116), what a response gives against the exchange in hand
(R115), what an exchange answers (R120) and what it does to the ready table (R121). -/

namespace Sys2Proof.Proofs.FrameCodec

open Sys2Proof Sys2Proof.Machine Sys2Proof.Proofs.DecodeEncode Sys2Proof.Proofs.HostPort

/-- Settles O11: the laws with bytes left over, and these with none left over. -/
theorem frameCodecRoundTrip : Obligations.FrameCodecRoundTrip := by
  intro c ch cmdbyte status pay rest hlen
  have hrequest (tail : List Byte) : decodeRequest c (encodeRequest c ch cmdbyte pay ++ tail) =
      .request ch cmdbyte pay tail := decodeRequest_encodeRequest_append hlen
  have hresponse (tail : List Byte) : decodeResponse (encodeResponse ch status pay ++ tail) =
      .response ch status pay tail := decodeResponse_encodeResponse_append hlen
  have hrequestAlone := hrequest []
  have hresponseAlone := hresponse []
  rw [List.append_nil] at hrequestAlone hresponseAlone
  exact ⟨hrequestAlone, hresponseAlone, hrequest rest, hresponse rest⟩

section

variable {c : Config} {s t : State} {reqch ch status : Byte} {pay : List Byte} {n x : Nat}

/-! The clauses of `Validate` (R115, R263), in the order of its tests; `validate_success` and `validate_failure` are the
other two. -/

theorem validate_channelMismatch (h : ch ≠ reqch) :
    validate c reqch n ch status pay = .err .channelMismatch (infoOf reqch ch) := if_pos h

theorem validate_other (hsuccess : status ≠ c.stSuccess) (hfailure : status ≠ c.stFailure) :
    validate c ch n ch status pay = .err .statusOther (infoOf status (byteOf pay.length)) := by
  simp [validate, statusClass, hsuccess, hfailure]

theorem validate_lengthMismatch (hstatus : c.stSuccess ≠ c.stFailure) (h : pay.length ≠ n) :
    validate c ch n ch c.stSuccess pay = .err .lengthMismatch (infoOf (byteOf n) (byteOf pay.length)) := by
  simp [validate, statusClass, hstatus, h]

/-! The downgrade (R121). -/

theorem downgradeOn_ready_of_ok (p : List Byte) : (downgradeOn x (.ok p) s).ready = s.ready := rfl

theorem downgradeOn_ready_of_kept {cause : Cause} {info : BitVec 16}
    (h : s.cfg.downgrade = false ∨ downgrades cause = false) :
    (downgradeOn x (.err cause info) s).ready = s.ready := by
  obtain h | h := h <;> simp [downgradeOn, h]

theorem downgradeOn_ready_of_downgrades {cause : Cause} {info : BitVec 16} (hon : s.cfg.downgrade = true)
    (h : downgrades cause = true) : (downgradeOn x (.err cause info) s).ready = s.ready.set x false := by
  simp [downgradeOn, hon, h]

/-- The table after the check of a response against the exchange in hand, which gave `r`: nothing downgrades the channel
of the probe's ping (R121). -/
def readyAfterCheck (s : State) (r : XRes) : List Bool :=
  if s.seq.xcmd = .pingChannel then s.ready else (downgradeOn s.seq.xch.toNat r s).ready

theorem readyAfterCheck_ok (p : List Byte) : readyAfterCheck s (.ok p) = s.ready := by
  rw [readyAfterCheck, downgradeOn_ready_of_ok, ite_self]

theorem readyAfterCheck_kept {cause : Cause} {info : BitVec 16} (h : downgrades cause = false) :
    readyAfterCheck s (.err cause info) = s.ready := by
  rw [readyAfterCheck, downgradeOn_ready_of_kept (.inr h), ite_self]

theorem readyAfterCheck_exempt {cause : Cause} {info : BitVec 16}
    (h : s.cfg.downgrade = false ∨ s.seq.xcmd = .pingChannel) : readyAfterCheck s (.err cause info) = s.ready := by
  obtain hoff | hping := h
  · rw [readyAfterCheck, downgradeOn_ready_of_kept (.inl hoff), ite_self]
  · rw [readyAfterCheck, if_pos hping]

theorem readyAfterCheck_cleared {cause : Cause} {info : BitVec 16} (hon : s.cfg.downgrade = true)
    (hping : s.seq.xcmd ≠ .pingChannel) (h : downgrades cause = true) :
    readyAfterCheck s (.err cause info) = s.ready.set s.seq.xch.toNat false := by
  rw [readyAfterCheck, if_neg hping, downgradeOn_ready_of_downgrades hon h]

/-! The check as an instruction. -/

theorem wireKept_of_trafficThenIdle (h : TrafficThenIdle s t) : WireKept s t := by
  obtain ⟨u, htraffic, rfl⟩ := h
  exact ⟨htraffic.log, ⟨htraffic.cursor, htraffic.lastAddr, htraffic.addrValid, htraffic.sstate⟩,
    fun a => congrArg (Memory.read · a) htraffic.buf, htraffic.excl, htraffic.sessions,
    ⟨htraffic.cfg, htraffic.hreq, htraffic.agenda⟩, htraffic.draws, rfl, rfl⟩

theorem downgradeOn_tr (x : Nat) (r : XRes) (s : State) : (downgradeOn x r s).tr = s.tr := by
  unfold downgradeOn
  split
  · split <;> rfl
  · rfl
  · rfl

/-- The downgrade neither sees nor writes a register of the sequencer. -/
theorem downgradeOn_endExchange (x : Nat) (r v : XRes) (s : State) :
    downgradeOn x r (s.endExchange v) = (downgradeOn x r s).endExchange v := by
  cases r with
  | ok | skipped => rfl
  | err =>
    simp only [downgradeOn, apply_ite (State.endExchange · v)]
    rfl

/-- The check of a response leaves what `Validate` says in `xres`, downgrades accordingly, and does nothing else (R115,
R121). -/
theorem checkResponse_spec (ch status : Byte) (pay : List Byte) (s : State) :
    ∃ t, checkResponse ch status pay s = .next t ∧ WireKept s t ∧ t.tr = s.tr ∧
      t.seq.xres = validate s.cfg s.seq.xch s.seq.xlen ch status pay ∧
      t.ready = readyAfterCheck s (validate s.cfg s.seq.xch s.seq.xlen ch status pay) := by
  refine ⟨_, rfl, wireKept_of_trafficThenIdle (checkResponse_traffic rfl), ?_⟩
  unfold readyAfterCheck
  split
  · exact ⟨rfl, rfl, rfl⟩
  · rw [downgradeOn_endExchange]
    exact ⟨downgradeOn_tr .., rfl, rfl⟩

/-- A response whose status is not SUCCESS, which `Validate` answers with `cause` on the right channel, touches no ready
flag on whatever channel it comes (R115, R121). -/
theorem checkResponse_fails {cause : Cause} {info : BitVec 16} (hcause : downgrades cause = false)
    (h : validate s.cfg s.seq.xch s.seq.xlen s.seq.xch status pay = .err cause info) :
    ∃ t, checkResponse ch status pay s = .next t ∧ WireKept s t ∧ t.tr = s.tr ∧ t.ready = s.ready ∧
      (ch ≠ s.seq.xch → t.seq.xres = .err .channelMismatch (infoOf s.seq.xch ch)) ∧
      (ch = s.seq.xch → t.seq.xres = .err cause info) := by
  obtain ⟨t, hnext, hkept, htr, hres, hready⟩ := checkResponse_spec ch status pay s
  refine ⟨t, hnext, hkept, htr, ?_, fun hch => by rw [hres, validate_channelMismatch hch],
    fun hch => by rw [hres, hch, h]⟩
  rw [hready]
  by_cases hch : ch = s.seq.xch
  · rw [hch, h, readyAfterCheck_kept hcause]
  · rw [validate_channelMismatch hch, readyAfterCheck_kept rfl]

end

/-- Settles O18: the check leaves what `Validate` says, whose clauses are the cases of the statement. -/
theorem responsesAreValidated : Obligations.ResponsesAreValidated := by
  intro s ch status pay ⟨_, _, _, _, _, hstatus⟩
  refine ⟨?_, checkResponse_fails rfl (validate_failure ..), fun hw => ?_⟩
  · obtain ⟨t, hnext, hkept, htr, hres, hready⟩ := checkResponse_spec ch s.cfg.stSuccess pay s
    refine ⟨t, hnext, hkept, htr, fun hch => ?_, fun hch hlen => ?_, fun hch hlen => ?_⟩
    · rw [validate_channelMismatch hch] at hres hready
      exact ⟨hres, hready.trans (readyAfterCheck_kept rfl)⟩
    · rw [hch, validate_lengthMismatch hstatus hlen] at hres hready
      exact ⟨hres, fun hon hping => hready.trans (readyAfterCheck_cleared hon hping rfl),
        fun hexempt => hready.trans (readyAfterCheck_exempt hexempt)⟩
    · rw [hch, validate_success hstatus hlen] at hres hready
      exact ⟨hres, hready.trans (readyAfterCheck_ok pay)⟩
  · simp only [wellFormed, Bool.and_eq_true, decide_eq_true_eq] at hw
    obtain ⟨⟨hsuccess, hfailure⟩, -⟩ := hw
    exact checkResponse_fails rfl (validate_other hsuccess hfailure)

/-- An exchange's causes are all causes but that of the connection code (R120, R261). -/
theorem mem_causes_of_ne_connectFail {cause : Cause} (h : cause ≠ .connectFail) :
    cause ∈ [.writeFail, .shortHeader, .shortPayload, .lengthMismatch, .channelMismatch, .statusFailure,
      .statusOther] := by
  cases cause with
  | connectFail => exact absurd rfl h
  | _ => decide

/-- Settles O54: by what an exchange answers. -/
theorem exchangeResultIsPayloadOrCause : Obligations.ExchangeResultIsPayloadOrCause := by
  intro s ch cmd pay explen
  obtain hok | ⟨cause, info, herr, hcause⟩ := exchange_cases ch cmd pay explen s
  · exact .inl hok
  · exact .inr ⟨cause, info, herr, mem_causes_of_ne_connectFail hcause⟩

/-- Settles O55: `ExchangeCh` is the exchange and then the downgrade, which keeps the result. -/
theorem downgradeOnCommunicationErrorsOnly : Obligations.DowngradeOnCommunicationErrorsOnly :=
  fun s c cmd pay explen => ⟨rfl, exchangeCh_readyAt c cmd pay explen s⟩

end Sys2Proof.Proofs.FrameCodec

/-! Requests that do not go out (40_frame_codec.md R119): the boundary calls end with the one that failed, and the
transfer surfaces `WriteFail`. -/

namespace Sys2Proof.Proofs.FailedSends

open Sys2Proof Sys2Proof.Machine Sys2Proof.Proofs.RegisterWriters Sys2Proof.Proofs.BoundaryCalls
open Sys2Proof.Proofs.FailingTransfers Sys2Proof.Proofs.FrameCodec

section

variable {s t : State} {cmd : WireCmd} {pay : List Byte} {n : Nat}

/-- The next request does not go out: its write fails, or its flush after a write that succeeds. -/
abbrev SendFails (s : State) : Prop :=
  WriteWillFail s ∨ (s.tr.writeAns.head? = some true ∧ s.tr.flushAns.head? = some false)

/-- `es` are the boundary calls of a request from `s` that does not go out (R119). -/
def FailedCalls (s : State) (frame : List Byte) (es : List LinkEvent) : Prop :=
  (WriteWillFail s → es = [.write frame false]) ∧
    (s.tr.writeAns.head? = some true → es = [.write frame true, .flush false])

theorem newEvents_of_called {es : List LinkEvent} (h : Called s t es) : newEvents s t = es := by
  unfold Called at h
  rw [newEvents, h, List.drop_left]

/-- An exchange whose request does not go out ends with `WriteFail`, and reads nothing (R119, R120). -/
theorem exchange_sendFails (ch : Byte) (h : SendFails s) :
    (exchange ch cmd pay n s).1 = .err .writeFail 0 ∧ (exchange ch cmd pay n s).2.tr.rx = s.tr.rx ∧
      ∃ es, Called s (exchange ch cmd pay n s).2 es ∧ FailedCalls s (wireFrame s.cfg ch cmd pay) es := by
  obtain hwrite | ⟨hwrite, hflush⟩ := h
  · obtain ⟨herr, hrx, hlink⟩ := exchange_writeFail (ch := ch) (cmd := cmd) (pay := pay) (n := n) hwrite
    exact ⟨herr, hrx, _, hlink, fun _ => rfl, fun hok => absurd (hwrite.symm.trans hok) (by simp)⟩
  · obtain ⟨herr, hrx, hlink⟩ := exchange_flushFail (ch := ch) (cmd := cmd) (pay := pay) (n := n) hwrite hflush
    exact ⟨herr, hrx, _, hlink, fun hfail => absurd (hwrite.symm.trans hfail) (by simp), fun _ => rfl⟩

/-- Routing adds no boundary call to the exchange (R121, R162). -/
theorem route1_tr (hready : s.readyAt s.cursor = true) :
    (route1 cmd pay n s).2.tr = (exchange (byteOf s.cursor) cmd pay n s).2.tr := by
  rw [route1, if_pos hready]
  exact downgradeOn_tr ..

theorem route1_sendFails (hready : s.readyAt s.cursor = true) (h : SendFails s) :
    (route1 cmd pay n s).1 = .err .writeFail 0 ∧ (route1 cmd pay n s).2.tr.rx = s.tr.rx ∧
      ∃ es, Called s (route1 cmd pay n s).2 es ∧ FailedCalls s (wireFrame s.cfg (byteOf s.cursor) cmd pay) es := by
  unfold Called
  rw [route1_tr hready, route1, if_pos hready]
  exact exchange_sendFails (byteOf s.cursor) h

/-- A request that does not go out ends a routed operation that surfaces errors with `WriteFail` and the downgrade
(R119, R121). -/
theorem runRouted_sendFails {i : Instr} {sid : Nat} {body : State → Verdict × State} {kind : Cause → ErrKind}
    (hacc : Accepted s i sid) (hready : s.readyAt s.cursor = true) (hfails : SendFails s)
    (hbody : Surfaces (body (s.accept i)) cmd pay n kind (s.accept i)) (hkind : kind .writeFail = .communication) :
    ∃ t, runRouted i sid body s = .next t ∧ ResultErr t sid .communication .writeFail 0 ∧
      (WriteWillFail s → newEvents s t = [.write (wireFrame s.cfg (byteOf s.cursor) cmd pay) false]) ∧
      (s.tr.writeAns.head? = some true →
        newEvents s t = [.write (wireFrame s.cfg (byteOf s.cursor) cmd pay) true, .flush false]) ∧
      t.tr.rx = s.tr.rx ∧ t.ready = (if s.cfg.downgrade then s.ready.set s.cursor false else s.ready) ∧
      FailureKept sid s t := by
  obtain ⟨herr, hrx, es, hcalled, hwriteCalls, hflushCalls⟩ :=
    route1_sendFails (s := s.accept i) (cmd := cmd) (pay := pay) (n := n) hready hfails
  obtain ⟨t, hrun, hresult, htr, ht, hkept⟩ := runRouted_surfaces hacc hbody herr
  have hevents : newEvents s t = es := newEvents_of_called (by unfold Called; rw [htr]; exact hcalled)
  refine ⟨t, hrun, hkind ▸ hresult, fun hfail => hevents.trans (hwriteCalls hfail),
    fun hok => hevents.trans (hflushCalls hok), ?_, ?_, hkept⟩
  · rw [htr]
    exact hrx
  · rw [ht, route1_fails_ready herr]
    simp only [kindOf, and_true, accept_cfg, accept_ready, accept_cursor]

end

/-- Settles O30: each of the seven surfaces the error of its exchange, and both `kindOf` and reset call `WriteFail` a
communication error. -/
theorem writeFailureReadsNothing : Obligations.WriteFailureReadsNothing := by
  intro s sid off v b i cmd pay hi hacc hready hfails
  simp only [List.mem_cons, List.not_mem_nil, or_false, Prod.mk.injEq] at hi
  obtain ⟨rfl, rfl, rfl⟩ | ⟨rfl, rfl, rfl⟩ | ⟨rfl, rfl, rfl⟩ | ⟨rfl, rfl, rfl⟩ | ⟨rfl, rfl, rfl⟩ | ⟨rfl, rfl, rfl⟩ |
    ⟨rfl, rfl, rfl⟩ := hi
  · exact runRouted_sendFails hacc hready hfails transfer_surfaces rfl
  · exact runRouted_sendFails hacc hready hfails transfer_surfaces rfl
  · exact runRouted_sendFails hacc hready hfails transfer_surfaces rfl
  · exact runRouted_sendFails hacc hready hfails transfer_surfaces rfl
  · exact runRouted_sendFails hacc hready hfails transfer_surfaces rfl
  · exact runRouted_sendFails hacc hready hfails moveBlock_surfaces rfl
  · rw [exec_reset]
    exact runRouted_sendFails hacc hready hfails resetVerdict_surfaces rfl

end Sys2Proof.Proofs.FailedSends

/-! The receive stream (40_frame_codec.md R122). `Streamed` holds of every part of an operation and composes, so that it
holds of every instruction. -/

namespace Sys2Proof.Proofs.ReceiveStream

open Sys2Proof Sys2Proof.Machine Sys2Proof.Proofs.RegisterWriters Sys2Proof.Proofs.HostPort
open Sys2Proof.Proofs.FrameCodec

section

variable {s t u : State}

/-- From `s` to `t` the receive stream lost from its front what was read and nothing else, and grew only at its end. -/
def Streamed (s t : State) : Prop := ∃ frames, Sent s t frames

theorem Streamed.trans (h : Streamed s t) (k : Streamed t u) : Streamed s u := by
  obtain ⟨_, hsent⟩ := h
  obtain ⟨_, ksent⟩ := k
  exact ⟨_, hsent.trans ksent⟩

theorem Streamed.of_tr_eq (h : t.tr = s.tr) : Streamed s t := ⟨_, .none h⟩

/-! The exchange. -/

theorem exchange_streamed (ch : Byte) (cmd : WireCmd) (pay : List Byte) (n : Nat) (s : State) :
    Streamed s (exchange ch cmd pay n s).2 := ⟨_, (exchange_spec ch cmd pay n s).2⟩

theorem exchangeCh_streamed (c : Nat) (cmd : WireCmd) (pay : List Byte) (n : Nat) (s : State) :
    Streamed s (exchangeCh c cmd pay n s).2 := ⟨_, (exchangeCh_spec c cmd pay n s).2⟩

theorem route1_streamed (cmd : WireCmd) (pay : List Byte) (n : Nat) (s : State) :
    Streamed s (route1 cmd pay n s).2 := ⟨_, (route1_spec cmd pay n s).2⟩

/-! The bodies of the routed operations. -/

/-- Asking the connection code leaves the unread bytes and the record of the link alone (R170, log entry 26). -/
theorem connectPort_streamed (s : State) : Streamed s (connectPort s).2 := by
  obtain ⟨hrx, hlink⟩ := takeConnect_rx s.tr
  exact ⟨_, [], [], by simp [connectPort, hlink], rfl, by simp [connectPort, hrx, readBytes]⟩

theorem broadcast_streamed (sid : Nat) (op : HostOp) (cmd : WireCmd) (pay : List Byte) (s : State) :
    Streamed s (broadcast sid op cmd pay s).2 := by
  obtain ⟨-, -, -, hsent, -⟩ := broadcastOver_spec sid op cmd pay (channelsFrom s.cfg 0) List.nodup_range' s
  exact ⟨_, hsent⟩

/-- No bound on the channels is asked here, where `probeOver_spec` asks one: a ping is sent whether or not the channel
has a ready flag. -/
theorem probeOver_streamed (sid : Nat) (op : HostOp) (cs : List Nat) (any : Bool) (s : State) :
    Streamed s (probeOver sid op cs any s).2 := by
  induction cs generalizing any s with
  | nil => exact .of_tr_eq rfl
  | cons c cs ih =>
    have hping : Streamed s (exchange (byteOf c) .pingChannel [] (respLenOf s.cfg .pingChannel [])
        ((s.setCi c).setReady c false)).2 :=
      .trans (t := (s.setCi c).setReady c false) (.of_tr_eq rfl) (exchange_streamed ..)
    simp only [probeOver]
    split <;> exact (hping.trans (.of_tr_eq rfl)).trans (ih _ _)

theorem probe_streamed (sid : Nat) (op : HostOp) (s : State) : Streamed s (probe sid op s).2 :=
  .trans (t := invalidateSearch s) (.of_tr_eq rfl) (probeOver_streamed ..)

theorem findOn_streamed (sid : Nat) (op : HostOp) (c : Nat) (cmd : WireCmd) (s : State) :
    Streamed s (findOn sid op c cmd s).2 := by
  obtain ⟨-, -, -, -, ⟨_, -, hsent⟩, -, -⟩ := findOn_spec sid op c cmd s
  exact ⟨_, hsent⟩

theorem scanFrom_streamed (sid : Nat) (op : HostOp) (start : Nat) (s : State) :
    Streamed s (scanFrom sid op start s).2 := by
  obtain ⟨-, -, ⟨_, hsent, -⟩, -, -⟩ := scanOver_spec sid op (channelsFrom s.cfg start) s
  exact ⟨_, hsent⟩

theorem findFirst_streamed (sid : Nat) (s : State) : Streamed s (findFirst sid s).2 :=
  (probe_streamed sid .findFirstDevice s).trans (scanFrom_streamed ..)

theorem findNext_streamed (sid : Nat) (s : State) : Streamed s (findNext sid s).2 := by
  have hstart : Streamed s (s.setSState .searching) := .of_tr_eq rfl
  have hfind := hstart.trans (findOn_streamed sid .findNextDevice s.cursor .findNext _)
  unfold findNext
  dsimp only
  split
  · split
    · exact hfind.trans (.of_tr_eq rfl)
    · exact hfind.trans (scanFrom_streamed ..)
  · exact hstart.trans (scanFrom_streamed ..)

theorem presentOver_streamed (sid : Nat) (addr : DevAddr) (cs : List Nat) (s : State) :
    Streamed s (presentOver sid addr cs s).2 := by
  obtain ⟨_, hsent, -⟩ := (presentOver_spec sid addr cs s).sent
  exact ⟨_, hsent⟩

theorem selectDevice_streamed (sid : Nat) (addr : DevAddr) (s : State) :
    Streamed s (selectDevice sid addr s).2 := by
  have hask := route1_streamed .matchRom (addrBytes addr) (respLenOf s.cfg .matchRom (addrBytes addr)) s
  unfold selectDevice
  dsimp only
  split
  · exact hask
  · exact hask
  · split
    · exact hask
    · exact hask.trans (.of_tr_eq rfl)

theorem moveBlock_streamed (off n : Nat) (s : State) : Streamed s (moveBlock off n s).2 := by
  have hask := route1_streamed .dataBlock (memRead s off n) n s
  unfold moveBlock
  dsimp only
  split
  · exact hask.trans (.of_tr_eq rfl)
  · exact hask
  · exact hask

/-! Whole instructions. -/

theorem runRouted_streamed {i : Instr} {sid : Nat} {body : State → Verdict × State}
    (h : runRouted i sid body s = .next t) (hbody : ∀ v, Streamed v (body v).2) : Streamed s t := by
  obtain rfl | ⟨-, rfl⟩ := runRouted_next h
  · exact .of_tr_eq rfl
  · have haccept : Streamed s (s.accept i) := .of_tr_eq rfl
    exact (haccept.trans (hbody _)).trans (.of_tr_eq rfl)

theorem runWire_streamed {i : Instr} {ch : Byte} {cmd : WireCmd} {pay : List Byte}
    (h : runWire i ch cmd pay s = .next t) : Streamed s t := by
  unfold runWire at h
  split at h <;> cases h
  · exact (exchangeCh_streamed ..).trans (.of_tr_eq rfl)
  · exact .of_tr_eq rfl

theorem execCmdPingChannel_streamed {ch : Byte} (h : execCmdPingChannel ch s = .next t) : Streamed s t := by
  unfold execCmdPingChannel at h
  split at h <;> cases h
  · exact (exchange_streamed ..).trans (.of_tr_eq rfl)
  · exact .of_tr_eq rfl

theorem checkResponse_streamed {ch status : Byte} {pay : List Byte} (h : checkResponse ch status pay s = .next t) :
    Streamed s t := by
  obtain ⟨t', hnext, -, htr, -⟩ := checkResponse_spec ch status pay s
  cases hnext.symm.trans h
  exact .of_tr_eq htr

/-- The arbiter does not touch the streams. -/
theorem runArbiter_streamed {i : Instr} {sid : Nat} {body : State → State} (h : runArbiter i body s = .next t)
    (hbody : Arbitrated sid s (body s)) : Streamed s t := by
  obtain rfl | rfl := runArbiter_next h
  · exact .of_tr_eq rfl
  · obtain ⟨⟨_, _, _, hstate⟩, -⟩ := hbody
    exact .of_tr_eq (hstate ▸ rfl)

theorem exec_streamed {i : Instr} (h : exec i s = .next t) : Streamed s t := by
  cases i with
  | cmdPingChannel => exact execCmdPingChannel_streamed h
  | cmdFindFirst | cmdFindNext | cmdGetAddress | cmdSetSearchOnlyAlarming | cmdSetNoResetSearch | cmdSetSearchAll
  | cmdPutBit | cmdGetByte | cmdGetBlock | cmdDataBlock | cmdReset | cmdPutByte | cmdTargetFamily
  | cmdTargetAllFamilies | cmdSearchRom | cmdMatchRom => exact runWire_streamed h
  | cmdSetPowerNormal => cases h
  | respSuccess | respFailure | respOther => exact checkResponse_streamed h
  | selectPort => exact runRouted_streamed h connectPort_streamed
  | freePort =>
    rw [exec_freePort] at h
    exact runRouted_streamed h fun v => .of_tr_eq rfl
  | adapterDetected sid =>
    rw [exec_adapterDetected] at h
    exact runRouted_streamed h (probe_streamed sid _)
  | findFirstDevice sid => exact runRouted_streamed h (findFirst_streamed sid)
  | findNextDevice sid => exact runRouted_streamed h (findNext_streamed sid)
  | getAddress sid off =>
    rw [exec_getAddress] at h
    exact runRouted_streamed h fun v => .of_tr_eq rfl
  | isPresent sid addr => exact runRouted_streamed h fun v => presentOver_streamed sid addr _ v
  | select sid addr => exact runRouted_streamed h (selectDevice_streamed sid addr)
  | reset =>
    rw [exec_reset] at h
    exact runRouted_streamed h fun v => route1_streamed _ _ _ v
  | putBit | getBit | putByte | getByte | getBlock => exact runRouted_streamed h fun v => route1_streamed _ _ _ v
  | dataBlock sid off n => exact runRouted_streamed h (moveBlock_streamed off n.toNat)
  | setSearchOnlyAlarmingDevices | setNoResetSearch | setSearchAllDevices | targetFamily | targetAllFamilies =>
    exact runRouted_streamed h (broadcast_streamed _ _ _ _)
  | beginExclusive sid blocking => exact runArbiter_streamed h (beginExclusive_arbitrated sid blocking s)
  | endExclusive sid => exact runArbiter_streamed h (endExclusive_arbitrated sid s)

end

/-- Settles O56: every instruction is `Streamed`, and what it read stands in the record of the link. -/
theorem receiveStreamIsNeverResynchronised : Obligations.ReceiveStreamIsNeverResynchronised := by
  intro s t i h
  obtain ⟨_, hsent⟩ := exec_streamed h
  exact hsent.received

end Sys2Proof.Proofs.ReceiveStream

/-! The wire commands (41_wire_commands.md). Each is one exchange on its channel, so that one argument about the exchange
serves all seventeen that are sent; the obligations differ in the command, its payload and the length of the answer. -/

namespace Sys2Proof.Proofs.WireCommands

open Sys2Proof Sys2Proof.Machine Sys2Proof.Proofs.DecodeEncode Sys2Proof.Proofs.HostPort
open Sys2Proof.Proofs.FrameCodec

section

variable {s : State} {i : Instr} {ch : Byte} {cmd : WireCmd} {pay reply : List Byte} {n : Nat}

/-- A command that ends in `t` has sent `frame` and nothing else, has `reply` for its result, and has changed no register
of the core (R120). -/
abbrev Completed (s : State) (frame reply : List Byte) (t : State) : Prop :=
  t.seq.xres = .ok reply ∧ framesSent s t = [frame] ∧ t.ready = s.ready ∧ WireKept s t

/-- The exchange with a device that answers in full with status SUCCESS (R115, R120). -/
theorem exchange_completes (hc : s.cfg.Wf) (hlen : reply.length = n) (hn : n ≤ 255)
    (ha : Answers s (encodeResponse ch s.cfg.stSuccess reply)) :
    (exchange ch cmd pay n s).1 = .ok reply ∧
      Completed s (wireFrame s.cfg ch cmd pay) reply (exchange ch cmd pay n s).2.goIdle := by
  obtain ⟨_, _, _, _, _, hstatus⟩ := hc
  obtain ⟨htraffic, hsent⟩ := exchange_spec ch cmd pay n s
  have hok : (exchange ch cmd pay n s).1 = .ok reply := by
    obtain ⟨hanswer, -⟩ := exchange_answered (cmd := cmd) (pay := pay) (n := n) (ch := ch) (tail := [])
      (hlen.trans_le hn) (by rwa [List.append_nil])
    rw [hanswer, validate_success hstatus hlen]
  exact ⟨hok, (exchange_xres ch cmd pay n s).trans hok, hsent.frames, exchange_ready ch cmd pay n s,
    wireKept_of_trafficThenIdle ⟨_, htraffic, rfl⟩⟩

/-- No downgrade follows an exchange that gives a payload (R121). -/
theorem exchangeCh_toNat_of_ok (h : (exchange ch cmd pay n s).1 = .ok reply) :
    exchangeCh ch.toNat cmd pay n s = exchange ch cmd pay n s := by
  simp only [exchangeCh, byteOf, BitVec.ofNat_toNat, BitVec.setWidth_eq, h, downgradeOn]
  exact Prod.ext h.symm rfl

/-- The expected length fits the length byte: it is a byte of the table, or the operand, or the length of a block that was
itself sent (R11, R130). -/
theorem respLenOf_le (c : Config) (cmd : WireCmd) (h : pay.length ≤ 255) : respLenOf c cmd pay ≤ 255 := by
  cases cmd with
  | dataBlock => exact h
  | _ => exact Nat.le_of_lt_succ (BitVec.isLt _)

/-- A command to a ready channel whose device answers in full with status SUCCESS (R120, R161). -/
theorem runWire_completes (hc : s.cfg.Wf) (hw : wellFormed s.cfg i = true) (hready : s.readyAt ch.toNat = true)
    (hpay : pay.length ≤ 255) (hlen : reply.length = respLenOf s.cfg cmd pay)
    (ha : Answers s (encodeResponse ch s.cfg.stSuccess reply)) :
    ∃ t, runWire i ch cmd pay s = .next t ∧ Completed s (wireFrame s.cfg ch cmd pay) reply t := by
  obtain ⟨hok, hcompleted⟩ := exchange_completes (cmd := cmd) (pay := pay) hc hlen (respLenOf_le _ _ hpay) ha
  refine ⟨_, ?_, hcompleted⟩
  rw [runWire, hw, hready, exchangeCh_toNat_of_ok hok]
  rfl

end

/-- Settles O12: the ping is the exchange itself, with no look at the ready flag (R131, R161). -/
theorem pingCommandCompletes : Obligations.PingCommandCompletes := by
  intro s ch reply hc hw hlen ha
  obtain ⟨-, hcompleted⟩ := exchange_completes (cmd := .pingChannel) (pay := []) hc hlen
    (respLenOf_le s.cfg .pingChannel (pay := []) (Nat.zero_le _)) ha
  exact ⟨_, if_pos hw, hcompleted⟩

/-- Settles O13: each of the nine runs its command with an empty payload and takes its length from the table. -/
theorem emptyPayloadCommandsComplete : Obligations.EmptyPayloadCommandsComplete := by
  intro s ch i cmd reply hi hc hw hready hlen ha
  have hrun : exec i s = runWire i ch cmd [] s ∧ respLenOf s.cfg cmd [] = (s.cfg.respLen.get cmd).toNat := by
    simp only [List.mem_cons, List.not_mem_nil, or_false, Prod.mk.injEq] at hi
    obtain ⟨rfl, rfl⟩ | ⟨rfl, rfl⟩ | ⟨rfl, rfl⟩ | ⟨rfl, rfl⟩ | ⟨rfl, rfl⟩ | ⟨rfl, rfl⟩ | ⟨rfl, rfl⟩ | ⟨rfl, rfl⟩ |
      ⟨rfl, rfl⟩ := hi
    all_goals exact ⟨rfl, rfl⟩
  obtain ⟨hexec, hexp⟩ := hrun
  rw [hexec]
  exact runWire_completes hc hw hready (Nat.zero_le _) (hlen.trans hexp.symm) ha

/-- Settles O14: each of the four runs its command with its one byte; GET_BLOCK's byte is the expected length. -/
theorem oneByteCommandsComplete : Obligations.OneByteCommandsComplete := by
  intro s ch b v i cmd sent explen reply hi hc hw hready hlen ha
  have hrun : exec i s = runWire i ch cmd [sent] s ∧ respLenOf s.cfg cmd [sent] = explen := by
    simp only [List.mem_cons, List.not_mem_nil, or_false, Prod.mk.injEq] at hi
    obtain ⟨rfl, rfl, rfl, rfl⟩ | ⟨rfl, rfl, rfl, rfl⟩ | ⟨rfl, rfl, rfl, rfl⟩ | ⟨rfl, rfl, rfl, rfl⟩ := hi
    all_goals exact ⟨rfl, rfl⟩
  obtain ⟨hexec, hexp⟩ := hrun
  rw [hexec]
  exact runWire_completes hc hw hready (by decide : 1 ≤ 255) (hlen.trans hexp.symm) ha

/-- Settles O15: each of the three runs its command with its bytes in index order, at most 255 of them as the instruction
is well-formed; DATA_BLOCK's answer is as long as its block. -/
theorem blockAndAddressCommandsComplete : Obligations.BlockAndAddressCommandsComplete := by
  intro s ch block addr i cmd sent explen reply hi hc hw hready hlen ha
  have hrun : exec i s = runWire i ch cmd sent s ∧ respLenOf s.cfg cmd sent = explen ∧
      frameOk s.cfg ch sent.length = true := by
    simp only [List.mem_cons, List.not_mem_nil, or_false, Prod.mk.injEq] at hi
    obtain ⟨rfl, rfl, rfl, rfl⟩ | ⟨rfl, rfl, rfl, rfl⟩ | ⟨rfl, rfl, rfl, rfl⟩ := hi
    all_goals exact ⟨rfl, rfl, hw⟩
  obtain ⟨hexec, hexp, hframe⟩ := hrun
  obtain ⟨hpay, -⟩ := Laws.EncodeFormat.frame_bounds hframe
  rw [hexec]
  exact runWire_completes hc hw hready hpay (hlen.trans hexp.symm) ha

end Sys2Proof.Proofs.WireCommands

/-! SET_POWER_NORMAL (41_wire_commands.md R144, 93_implementation_defined.md U7). `Unpowered` holds of every part of an
operation, as no part names the command, and it composes, so that it holds of every instruction. -/

namespace Sys2Proof.Proofs.PowerCommand

open Sys2Proof Sys2Proof.Machine Sys2Proof.Proofs.DecodeEncode Sys2Proof.Proofs.RegisterWriters
open Sys2Proof.Proofs.HostPort Sys2Proof.Proofs.FrameCodec

section

variable {s t u : State} {cmd : WireCmd}

/-- A request frame of a command other than SET_POWER_NORMAL. -/
def OtherFrame (c : Config) (frame : List Byte) : Prop :=
  ∃ ch cmd pay, cmd ≠ .setPowerNormal ∧ frame = wireFrame c ch cmd pay

/-- The command byte tells SET_POWER_NORMAL from every other command (R10). -/
theorem opc_ne_setPowerNormal {c : Config} (hc : c.Wf) (h : cmd ≠ .setPowerNormal) :
    c.opc.get cmd ≠ c.opc.setPowerNormal := by
  obtain ⟨_, _, _, _, hopc, _⟩ := hc
  intro heq
  have hlookup : some cmd = some .setPowerNormal := by
    rw [← cmdOfByte_get hopc cmd, ← cmdOfByte_get hopc .setPowerNormal, heq]
    rfl
  exact h (Option.some.inj hlookup)

/-- From `s` to `t` every frame sent is another command's than SET_POWER_NORMAL. The configuration is named because the
frames of the next part are built under it. -/
structure Unpowered (s t : State) : Prop where
  cfg : t.cfg = s.cfg
  sent : ∃ frames, Sent s t frames ∧ ∀ frame ∈ frames, OtherFrame s.cfg frame

theorem Unpowered.trans (h : Unpowered s t) (k : Unpowered t u) : Unpowered s u := by
  obtain ⟨hcfg, hframes, hsent, hother⟩ := h
  obtain ⟨kcfg, kframes, ksent, kother⟩ := k
  refine ⟨kcfg.trans hcfg, _, hsent.trans ksent, fun frame hmem => ?_⟩
  obtain hmem | hmem := List.mem_append.1 hmem
  · exact hother frame hmem
  · exact hcfg ▸ kother frame hmem

/-- Nothing is sent where the transport is untouched. -/
theorem Unpowered.of_tr_eq (hcfg : t.cfg = s.cfg) (htr : t.tr = s.tr) : Unpowered s t :=
  ⟨hcfg, [], .none htr, nofun⟩

/-- The parts on either side of an update that leaves the transport untouched. -/
theorem Unpowered.trans_of_tr_eq {t' : State} (h : Unpowered s t) (k : Unpowered t' u) (hcfg : t'.cfg = t.cfg)
    (htr : t'.tr = t.tr) : Unpowered s u := (h.trans (.of_tr_eq hcfg htr)).trans k

/-! The exchange. -/

theorem exchange_unpowered (ch : Byte) (pay : List Byte) (n : Nat) (s : State) (hcmd : cmd ≠ .setPowerNormal) :
    Unpowered s (exchange ch cmd pay n s).2 := by
  obtain ⟨htraffic, hsent⟩ := exchange_spec ch cmd pay n s
  exact ⟨htraffic.cfg, _, hsent, List.forall_mem_singleton.2 ⟨ch, cmd, pay, hcmd, rfl⟩⟩

theorem exchangeCh_unpowered (c : Nat) (pay : List Byte) (n : Nat) (s : State) (hcmd : cmd ≠ .setPowerNormal) :
    Unpowered s (exchangeCh c cmd pay n s).2 :=
  (exchange_unpowered (byteOf c) pay n s hcmd).trans
    (.of_tr_eq (downgradeOn_spec ..).1.cfg (downgradeOn_tr ..))

theorem route1_unpowered (pay : List Byte) (n : Nat) (s : State) (hcmd : cmd ≠ .setPowerNormal) :
    Unpowered s (route1 cmd pay n s).2 := by
  unfold route1
  split
  · exact exchangeCh_unpowered _ pay n s hcmd
  · exact .of_tr_eq rfl rfl

/-! The bodies of the routed operations. -/

/-- Asking the connection code sends no frame (R170). -/
theorem connectPort_unpowered (s : State) : Unpowered s (connectPort s).2 := by
  obtain ⟨hrx, hlink⟩ := takeConnect_rx s.tr
  exact ⟨rfl, [], ⟨[], [], by simp [connectPort, hlink], rfl, by simp [connectPort, hrx, readBytes]⟩, nofun⟩

theorem broadcast_unpowered (sid : Nat) (op : HostOp) (pay : List Byte) (hcmd : cmd ≠ .setPowerNormal) (s : State) :
    Unpowered s (broadcast sid op cmd pay s).2 := by
  obtain ⟨hkept, -, -, hsent, -⟩ := broadcastOver_spec sid op cmd pay (channelsFrom s.cfg 0) List.nodup_range' s
  refine ⟨hkept.cfg, _, hsent, fun frame hmem => ?_⟩
  obtain ⟨c, -, rfl⟩ := List.mem_map.1 hmem
  exact ⟨_, cmd, pay, hcmd, rfl⟩

theorem probeOver_unpowered (sid : Nat) (op : HostOp) (cs : List Nat) (any : Bool) (s : State) :
    Unpowered s (probeOver sid op cs any s).2 := by
  induction cs generalizing any s with
  | nil => exact .of_tr_eq rfl rfl
  | cons c cs ih =>
    have hping : Unpowered s (exchange (byteOf c) .pingChannel [] (respLenOf s.cfg .pingChannel [])
        ((s.setCi c).setReady c false)).2 :=
      .trans (t := (s.setCi c).setReady c false) (.of_tr_eq rfl rfl) (exchange_unpowered _ _ _ _ nofun)
    simp only [probeOver]
    split <;> exact hping.trans_of_tr_eq (ih _ _) rfl rfl

theorem probe_unpowered (sid : Nat) (op : HostOp) (s : State) : Unpowered s (probe sid op s).2 :=
  .trans (t := invalidateSearch s) (.of_tr_eq rfl rfl) (probeOver_unpowered ..)

/-- A find sends its own command, and GET_ADDRESS after the flag (R228). -/
theorem findOn_unpowered (sid : Nat) (op : HostOp) (c : Nat) (s : State) (hcmd : cmd ≠ .setPowerNormal) :
    Unpowered s (findOn sid op c cmd s).2 := by
  obtain ⟨hkept, -, -, -, ⟨_, -, hsent⟩, -, -⟩ := findOn_spec sid op c cmd s
  refine ⟨hkept.cfg, _, hsent, List.forall_mem_cons.2 ⟨⟨_, cmd, [], hcmd, rfl⟩, fun frame hmem => ?_⟩⟩
  exact ⟨_, .getAddress, [], nofun, List.eq_of_mem_replicate hmem⟩

theorem scanOver_unpowered (sid : Nat) (op : HostOp) (cs : List Nat) (s : State) :
    Unpowered s (scanOver sid op cs s).2 := by
  induction cs generalizing s with
  | nil => exact .of_tr_eq rfl rfl
  | cons c cs ih =>
    have hstart : Unpowered s (((s.setSState .searching).setCursor c).setCi c) := .of_tr_eq rfl rfl
    have hfind := hstart.trans (findOn_unpowered (cmd := .findFirst) sid op c _ nofun)
    simp only [scanOver]
    split
    · split
      · exact hfind.trans (.of_tr_eq rfl rfl)
      · exact hfind.trans (ih _)
    · exact hstart.trans (ih _)

theorem findFirst_unpowered (sid : Nat) (s : State) : Unpowered s (findFirst sid s).2 :=
  (probe_unpowered sid .findFirstDevice s).trans (scanOver_unpowered ..)

theorem findNext_unpowered (sid : Nat) (s : State) : Unpowered s (findNext sid s).2 := by
  have hstart : Unpowered s (s.setSState .searching) := .of_tr_eq rfl rfl
  have hfind := hstart.trans (findOn_unpowered (cmd := .findNext) sid .findNextDevice s.cursor _ nofun)
  unfold findNext
  dsimp only
  split
  · split
    · exact hfind.trans (.of_tr_eq rfl rfl)
    · exact hfind.trans (scanOver_unpowered ..)
  · exact hstart.trans (scanOver_unpowered ..)

theorem presentOver_unpowered (sid : Nat) (addr : DevAddr) (cs : List Nat) (s : State) :
    Unpowered s (presentOver sid addr cs s).2 := by
  have hpresented := presentOver_spec sid addr cs s
  obtain ⟨_, hsent, hframes⟩ := hpresented.sent
  refine ⟨hpresented.kept.cfg, _, hsent, fun frame hmem => ?_⟩
  obtain ⟨_, -, -, hframe⟩ := hframes frame hmem
  exact ⟨_, .searchRom, _, nofun, hframe⟩

theorem selectDevice_unpowered (sid : Nat) (addr : DevAddr) (s : State) :
    Unpowered s (selectDevice sid addr s).2 := by
  have hask := route1_unpowered (cmd := .matchRom) (addrBytes addr) (respLenOf s.cfg .matchRom (addrBytes addr)) s nofun
  unfold selectDevice
  dsimp only
  split
  · exact hask
  · exact hask
  · split
    · exact hask
    · exact hask.trans (.of_tr_eq rfl rfl)

theorem moveBlock_unpowered (off n : Nat) (s : State) : Unpowered s (moveBlock off n s).2 := by
  have hask := route1_unpowered (cmd := .dataBlock) (memRead s off n) n s nofun
  unfold moveBlock
  dsimp only
  split
  · exact hask.trans (.of_tr_eq rfl rfl)
  · exact hask
  · exact hask

/-! Whole instructions. -/

theorem runRouted_unpowered {i : Instr} {sid : Nat} {body : State → Verdict × State}
    (h : runRouted i sid body s = .next t) (hbody : ∀ v, Unpowered v (body v).2) : Unpowered s t := by
  obtain rfl | ⟨-, rfl⟩ := runRouted_next h
  · exact .of_tr_eq rfl rfl
  · have haccept : Unpowered s (s.accept i) := .of_tr_eq rfl rfl
    exact (haccept.trans (hbody _)).trans (.of_tr_eq rfl rfl)

theorem runWire_unpowered {i : Instr} {ch : Byte} {pay : List Byte} (h : runWire i ch cmd pay s = .next t)
    (hcmd : cmd ≠ .setPowerNormal) : Unpowered s t := by
  unfold runWire at h
  split at h <;> cases h
  · exact (exchangeCh_unpowered _ _ _ s hcmd).trans (.of_tr_eq rfl rfl)
  · exact .of_tr_eq rfl rfl

theorem execCmdPingChannel_unpowered {ch : Byte} (h : execCmdPingChannel ch s = .next t) : Unpowered s t := by
  unfold execCmdPingChannel at h
  split at h <;> cases h
  · exact (exchange_unpowered (cmd := .pingChannel) ch _ _ s nofun).trans (.of_tr_eq rfl rfl)
  · exact .of_tr_eq rfl rfl

theorem checkResponse_unpowered {ch status : Byte} {pay : List Byte} (h : checkResponse ch status pay s = .next t) :
    Unpowered s t := by
  obtain ⟨t', hnext, ⟨-, -, -, -, -, ⟨hcfg, -, -⟩, -⟩, htr, -⟩ := checkResponse_spec ch status pay s
  cases hnext.symm.trans h
  exact .of_tr_eq hcfg htr

/-- The arbiter sends nothing. -/
theorem runArbiter_unpowered {i : Instr} {sid : Nat} {body : State → State} (h : runArbiter i body s = .next t)
    (hbody : Arbitrated sid s (body s)) : Unpowered s t := by
  obtain rfl | rfl := runArbiter_next h
  · exact .of_tr_eq rfl rfl
  · obtain ⟨⟨_, _, _, hstate⟩, -⟩ := hbody
    exact .of_tr_eq (hstate ▸ rfl) (hstate ▸ rfl)

theorem exec_unpowered {i : Instr} (h : exec i s = .next t) : Unpowered s t := by
  cases i with
  | cmdPingChannel => exact execCmdPingChannel_unpowered h
  | cmdFindFirst | cmdFindNext | cmdGetAddress | cmdSetSearchOnlyAlarming | cmdSetNoResetSearch | cmdSetSearchAll
  | cmdPutBit | cmdGetByte | cmdGetBlock | cmdDataBlock | cmdReset | cmdPutByte | cmdTargetFamily
  | cmdTargetAllFamilies | cmdSearchRom | cmdMatchRom => exact runWire_unpowered h nofun
  | cmdSetPowerNormal => cases h
  | respSuccess | respFailure | respOther => exact checkResponse_unpowered h
  | selectPort => exact runRouted_unpowered h connectPort_unpowered
  | freePort =>
    rw [exec_freePort] at h
    exact runRouted_unpowered h fun v => .of_tr_eq rfl rfl
  | adapterDetected sid =>
    rw [exec_adapterDetected] at h
    exact runRouted_unpowered h (probe_unpowered sid _)
  | findFirstDevice sid => exact runRouted_unpowered h (findFirst_unpowered sid)
  | findNextDevice sid => exact runRouted_unpowered h (findNext_unpowered sid)
  | getAddress sid off =>
    rw [exec_getAddress] at h
    exact runRouted_unpowered h fun v => .of_tr_eq rfl rfl
  | isPresent sid addr => exact runRouted_unpowered h fun v => presentOver_unpowered sid addr _ v
  | select sid addr => exact runRouted_unpowered h (selectDevice_unpowered sid addr)
  | reset =>
    rw [exec_reset] at h
    exact runRouted_unpowered h fun v => route1_unpowered _ _ v nofun
  | putBit | getBit | putByte | getByte | getBlock =>
    exact runRouted_unpowered h fun v => route1_unpowered _ _ v nofun
  | dataBlock sid off n => exact runRouted_unpowered h (moveBlock_unpowered off n.toNat)
  | setSearchOnlyAlarmingDevices | setNoResetSearch | setSearchAllDevices | targetFamily | targetAllFamilies =>
    exact runRouted_unpowered h (broadcast_unpowered _ _ _ nofun)
  | beginExclusive sid blocking => exact runArbiter_unpowered h (beginExclusive_arbitrated sid blocking s)
  | endExclusive sid => exact runArbiter_unpowered h (endExclusive_arbitrated sid s)

end

/-- Settles O17: the instruction's arm is the refusal, and every frame sent is another command's, whose byte differs as
`OPC` is injective. -/
theorem setPowerNormalIsNeverSent : Obligations.SetPowerNormalIsNeverSent := by
  refine ⟨fun s ch pay => rfl, fun s t i frame hc h hmem => ?_⟩
  obtain ⟨-, frames, hsent, hother⟩ := exec_unpowered h
  obtain ⟨ch, cmd, pay, hcmd, rfl⟩ := hother frame (hsent.frames ▸ hmem)
  exact ⟨ch, _, _, rfl, opc_ne_setPowerNormal hc hcmd⟩

end Sys2Proof.Proofs.PowerCommand

/-! Channels that are not ready (42_router_registry.md R161, R162): a wire command is not sent to one, and a transfer
whose cursor stands on one is skipped; both do nothing else. -/

namespace Sys2Proof.Proofs.UnreadyChannels

open Sys2Proof Sys2Proof.Machine Sys2Proof.Proofs.HostPort Sys2Proof.Proofs.FrameCodec
open Sys2Proof.Proofs.FailingTransfers

section

variable {s u : State} {i : Instr} {sid : Nat} {cmd : WireCmd} {pay : List Byte} {n : Nat} {v : Verdict}
variable {body : State → Verdict × State}

theorem runWire_unready {ch : Byte} (hready : s.readyAt ch.toNat = false) :
    ∃ t, runWire i ch cmd pay s = .next t ∧ t.seq.xres = .skipped ∧ t.tr = s.tr ∧ t.ready = s.ready ∧ WireKept s t := by
  refine ⟨(s.endExchange .skipped).goIdle, ?_, rfl, rfl, rfl,
    wireKept_of_trafficThenIdle ⟨_, endExchange_traffic s _, rfl⟩⟩
  rw [runWire, hready, Bool.and_false, if_neg Bool.false_ne_true]

theorem route1_unready (hready : s.readyAt s.cursor = false) : route1 cmd pay n s = (.skipped, s) := by
  rw [route1, hready, if_neg Bool.false_ne_true]

theorem transfer_unready {onOk : List Byte → Verdict} {onSkip : Verdict} (hready : s.readyAt s.cursor = false) :
    transfer cmd pay n onOk onSkip s = (onSkip, s) := by
  simp only [transfer, route1_unready hready, transferVerdict]

theorem moveBlock_unready {off : Nat} (hready : s.readyAt s.cursor = false) : moveBlock off n s = (.skipped, s) := by
  simp only [moveBlock, route1_unready hready]

theorem resetVerdict_unready (hready : s.readyAt s.cursor = false) :
    (resetVerdict (route1 cmd pay n s).1, (route1 cmd pay n s).2) = (.skipped, s) := by
  rw [route1_unready hready, resetVerdict]

theorem selectDevice_unready {addr : DevAddr} (hready : s.readyAt s.cursor = false) :
    selectDevice sid addr s = (.skippedBool, s) := by
  simp only [selectDevice, route1_unready hready]

/-- The end of a routed operation whose body is traffic that touches no ready flag: the session is told the verdict, and
no register of the core has changed (R93, R270). -/
theorem runRouted_of_traffic (hacc : Accepted s i sid) (hbody : body (s.accept i) = (v, u))
    (htraffic : Traffic (s.accept i) u) (hready : u.ready = s.ready) :
    ∃ t, runRouted i sid body s = .next t ∧ (t.session sid).result = resultOf s.draws v ∧ t.tr = u.tr ∧
      SameMemory s t ∧ TransferKept sid s t := by
  obtain ⟨hwf, hfree, hsid⟩ := hacc
  refine ⟨_, runRouted_accepted hwf hfree, ?_⟩
  rw [hbody]
  obtain ⟨hlog, hsearch, hmemory, htokens, hothers, hport, hidle⟩ := failureKept_deliver (sid := sid) v htraffic
  obtain ⟨hresult, -⟩ := htraffic.kept.delivered v hsid
  exact ⟨hresult, rfl, hmemory, hready, hlog, hsearch, htokens, hothers, hport, hidle⟩

/-- A routed operation whose body gives up at once, with a false boolean where `HasBool` says it has one (R162). -/
theorem runRouted_skips {HasBool : Prop} (hacc : Accepted s i sid) (hbody : body (s.accept i) = (v, s.accept i))
    (hskip : v = .skipped ∨ v = .skippedBool) (hbool : HasBool → v = .skippedBool) :
    ∃ t, runRouted i sid body s = .next t ∧ ResultSkipped t sid ∧
      (HasBool → (t.session sid).result.rbool = false) ∧ t.tr = s.tr ∧ SameMemory s t ∧ TransferKept sid s t := by
  obtain ⟨t, hrun, hresult, htr, hkept⟩ := runRouted_of_traffic hacc hbody (.refl _) rfl
  refine ⟨t, hrun, ?_, fun h => ?_, htr, hkept⟩
  · rw [ResultSkipped, hresult]
    obtain rfl | rfl := hskip
    · exact ⟨rfl, rfl, rfl⟩
    · exact ⟨rfl, rfl, rfl⟩
  · rw [hresult, hbool h]
    rfl

end

/-- Settles O16: each of the sixteen is `runWire`, which looks at the ready flag first. -/
theorem commandsToUnreadyChannelsAreSkipped : Obligations.CommandsToUnreadyChannelsAreSkipped := by
  intro s ch b v block addr i hi hready
  simp only [List.mem_cons, List.not_mem_nil, or_false] at hi
  obtain rfl | rfl | rfl | rfl | rfl | rfl | rfl | rfl | rfl | rfl | rfl | rfl | rfl | rfl | rfl | rfl := hi
  all_goals exact runWire_unready hready

/-- Settles O27: each of the eight gives up where `Route1` skips; getBit and select have a boolean. -/
theorem transfersSkipUnreadyChannel : Obligations.TransfersSkipUnreadyChannel := by
  intro s sid off v b addr i hi hacc hready
  simp only [List.mem_cons, List.not_mem_nil, or_false] at hi
  obtain rfl | rfl | rfl | rfl | rfl | rfl | rfl | rfl := hi
  · exact runRouted_skips hacc (transfer_unready hready) (.inl rfl) (by simp)
  · exact runRouted_skips hacc (transfer_unready hready) (.inr rfl) (fun _ => rfl)
  · exact runRouted_skips hacc (transfer_unready hready) (.inl rfl) (by simp)
  · exact runRouted_skips hacc (transfer_unready hready) (.inl rfl) (by simp)
  · exact runRouted_skips hacc (transfer_unready hready) (.inl rfl) (by simp)
  · exact runRouted_skips hacc (moveBlock_unready hready) (.inl rfl) (by simp)
  · rw [RegisterWriters.exec_reset]
    exact runRouted_skips hacc (resetVerdict_unready hready) (.inl rfl) (by simp)
  · exact runRouted_skips hacc (selectDevice_unready hready) (.inr rfl) (fun _ => rfl)

end Sys2Proof.Proofs.UnreadyChannels

/-! The router (42_router_registry.md): the port operations, the probe as adapterDetected and findFirstDevice run it,
and the five filter broadcasts. The loops over the channels are told by `probeOver_spec`, `probeOver_pings`,
`broadcastOver_spec` and `broadcastOver_asked`; here they are put together for a whole operation. -/

namespace Sys2Proof.Proofs.Router

open Sys2Proof Sys2Proof.Machine Sys2Proof.Proofs.RegisterWriters Sys2Proof.Proofs.UnreadyChannels

section

variable {s t : State} {i : Instr} {sid : Nat} {op : HostOp} {cmd : WireCmd} {pay : List Byte} {n : Nat}

theorem resultOk_of_result {d : Nat} (h : (t.session sid).result = resultOf d .ok) : ResultOk t sid := by
  rw [ResultOk, h]
  exact ⟨rfl, rfl, rfl⟩

theorem resultOk_of_okBool {d : Nat} {b : Bool} (h : (t.session sid).result = resultOf d (.okBool b)) :
    ResultOk t sid := by
  rw [ResultOk, h]
  exact ⟨rfl, rfl, rfl⟩

theorem resultErr_of_result {d : Nat} {kind : ErrKind} {cause : Cause} {info : BitVec 16}
    (h : (t.session sid).result = resultOf d (.err kind cause info)) : ResultErr t sid kind cause info := by
  rw [ResultErr, h]
  exact ⟨rfl, rfl, rfl, rfl⟩

theorem framesSent_eq_nil (h : t.tr.link = s.tr.link) : framesSent s t = [] := by
  simp only [framesSent, newEvents, h, List.drop_length, writtenFrames]

theorem readyAt_eq_false_of_length_le {x : Nat} (h : s.ready.length ≤ x) : s.readyAt x = false :=
  List.getD_eq_default _ _ h

theorem invalidateSearch_kept (s : State) : Kept s (invalidateSearch s) :=
  ((Kept.setCursor s 0).trans (Kept.clearAddr _)).trans (Kept.setSState _ _)

/-! The ports (R170, R171). -/

theorem takeConnect_of_head {tr : Transport} {ok : Bool} (h : tr.connAns.head? = some ok) : tr.takeConnect.1 = ok := by
  obtain ⟨rest, hrest⟩ := List.head?_eq_some_iff.1 h
  simp only [Transport.takeConnect, hrest]

/-! The probe (R164). -/

/-- What the probe of an operation accepted in `s` ends with: it pings each slot once, in ascending order, and logs
each; a slot is ready exactly if its own ping was answered, and exactly if its record says so. -/
structure Probed (sid : Nat) (op : HostOp) (i : Instr) (s : State) (r : Bool × State) (recs : List LogRec) : Prop where
  kept : Kept (s.accept i) r.2
  invalidated : r.2.cursor = 0 ∧ r.2.addrValid = false ∧ r.2.sstate = .idle ∧ r.2.lastAddr = s.lastAddr
  sent : Sent (s.accept i) r.2
    ((List.range s.cfg.maxChannels).map fun c => wireFrame s.cfg (byteOf c) .pingChannel [])
  log : r.2.log = s.log ++ recs
  keys : recs.map slotKey = (List.range s.cfg.maxChannels).map fun c => (sid, op, c, .pingChannel)
  recorded : ∀ rec ∈ recs, (r.2.readyAt rec.ch = true ↔ rec.outcome = .ok)
  answered : ∀ x, r.2.readyAt x = true ↔ (x < s.cfg.maxChannels ∧ ∃ p,
    (exchange (byteOf x) .pingChannel [] s.cfg.respLen.pingChannel.toNat (afterPings s x)).1 = .ok p)
  tr : r.2.tr = (afterPings s s.cfg.maxChannels).tr
  result : r.1 = true ↔ ∃ c, c < s.cfg.maxChannels ∧ r.2.readyAt c = true

theorem probe_probed (sid : Nat) (op : HostOp) (i : Instr) (hlen : s.ready.length = s.cfg.maxChannels) :
    ∃ recs, Probed sid op i s (probe sid op (s.accept i)) recs := by
  have hexist (c : Nat) (hc : c ∈ List.range' 0 s.cfg.maxChannels) : c < s.ready.length := by
    simp only [List.mem_range'_1] at hc
    omega
  obtain ⟨hkept, ⟨hcursor, hlast, hvalid, hsstate⟩, hother, hsent, hresult, recs, hlog, hkeys, hrecorded⟩ :=
    probeOver_spec sid op (List.range' 0 s.cfg.maxChannels) List.nodup_range' false (invalidateSearch (s.accept i))
      hexist
  obtain ⟨hpinged, htr⟩ := probeOver_pings sid op s s.cfg.maxChannels 0 false (invalidateSearch (s.accept i)) rfl rfl
    (by rw [Nat.zero_add]; exact hlen.ge)
  have hprobe : probe sid op (s.accept i) =
      probeOver sid op (List.range' 0 s.cfg.maxChannels) false (invalidateSearch (s.accept i)) := rfl
  rw [hprobe]
  refine ⟨recs, ?_, ⟨hcursor, hvalid, hsstate, hlast⟩, ?_, hlog, ?_, hrecorded, fun x => ?_, ?_, ?_⟩
  · exact (invalidateSearch_kept (s.accept i)).trans hkept
  · rw [List.range_eq_range']
    exact hsent.of_tr rfl rfl
  · rw [List.range_eq_range']
    exact hkeys
  · by_cases hx : x < s.cfg.maxChannels
    · exact (hpinged x (Nat.zero_le x) (by omega)).trans (and_iff_right hx).symm
    · have hunready := readyAt_eq_false_of_length_le ((hkept.readyLen.trans hlen).trans_le (not_lt.1 hx))
      simp [hunready, hx]
  · rw [Nat.zero_add] at htr
    exact htr
  · simpa using hresult

/-- What a probe has recorded of a channel it left ready. -/
theorem Probed.record_of_ready {r : Bool × State} {recs : List LogRec} {c : Nat} (h : Probed sid op i s r recs)
    (hready : r.2.readyAt c = true) : ∃ rec ∈ recs, rec.ch = c ∧ rec.cmd = .pingChannel ∧ rec.outcome = .ok := by
  obtain ⟨hlt, -⟩ := (h.answered c).1 hready
  have hkey : (sid, op, c, WireCmd.pingChannel) ∈ recs.map slotKey := by
    rw [h.keys]
    exact List.mem_map.2 ⟨c, List.mem_range.2 hlt, rfl⟩
  obtain ⟨rec, hrec, heq⟩ := List.mem_map.1 hkey
  simp only [slotKey, Prod.mk.injEq] at heq
  obtain ⟨-, -, rfl, hcmd⟩ := heq
  exact ⟨rec, hrec, rfl, hcmd, (h.recorded rec hrec).1 hready⟩

/-! The filter broadcasts (R163). -/

/-- A slot's record says `Skipped` exactly if the channel was not asked: no exchange answers that (R162, R172). -/
theorem slotRecord_skipped_iff (c : Nat) :
    (slotRecord s sid op cmd pay n c).outcome = .skipped ↔ s.readyAt c = false := by
  cases hready : s.readyAt c with
  | false => simp [hready]
  | true =>
    obtain ⟨p, hp, -⟩ | ⟨cause, info, hp, -⟩ :=
      exchange_cases (byteOf c) cmd pay n (afterAsking s.readyAt cmd pay n s c)
    · simp [hready, answerOf, hp, logOutcome]
    · simp [hready, answerOf, hp, logOutcome]

/-- A slot that was asked has its exchange's answer in its record (R172). -/
theorem slotRecord_outcome {c : Nat} (hready : s.readyAt c = true) :
    (slotRecord s sid op cmd pay n c).outcome = logOutcome (answerOf s.readyAt cmd pay n s c) := if_pos hready

/-- What a broadcast of an operation accepted in `s` ends with: its command goes once to each ready channel, in
ascending order, each slot's record tells its own exchange, and a ready flag falls exactly where that exchange failed to
communicate, with the downgrade on (R163, R121). -/
structure Asked (sid : Nat) (op : HostOp) (cmd : WireCmd) (pay : List Byte) (n : Nat) (i : Instr) (s u : State) :
    Prop where
  kept : Kept (s.accept i) u
  search : SameSearch s u
  sent : Sent (s.accept i) u
    (((List.range s.cfg.maxChannels).filter s.readyAt).map fun c => wireFrame s.cfg (byteOf c) cmd pay)
  log : u.log = s.log ++ (List.range s.cfg.maxChannels).map (slotRecord s sid op cmd pay n)
  ready : ∀ x, u.readyAt x = true ↔ (s.readyAt x = true ∧ ¬(x < s.cfg.maxChannels ∧ s.cfg.downgrade = true ∧
    ∃ cause info, answerOf s.readyAt cmd pay n s x = .err cause info ∧ kindOf cause = .communication))
  tr : u.tr = (afterAsking s.readyAt cmd pay n s s.cfg.maxChannels).tr

theorem broadcast_asked (sid : Nat) (op : HostOp) (i : Instr) (hn : respLenOf s.cfg cmd pay = n) :
    Asked sid op cmd pay n i s (broadcast sid op cmd pay (s.accept i)).2 := by
  obtain ⟨hkept, hsearch, -, hsent, -⟩ :=
    broadcastOver_spec sid op cmd pay (List.range' 0 s.cfg.maxChannels) List.nodup_range' (s.accept i)
  obtain ⟨hlog, htr, hpast, hslot⟩ :=
    broadcastOver_asked sid op cmd pay n s hn s.cfg.maxChannels 0 (s.accept i) rfl rfl (fun _ _ => rfl)
  simp only [Nat.zero_add] at htr hpast hslot
  have hbroadcast : (broadcast sid op cmd pay (s.accept i)).2 =
      broadcastOver sid op cmd pay (List.range' 0 s.cfg.maxChannels) (s.accept i) := rfl
  rw [hbroadcast]
  refine ⟨hkept, hsearch, ?_, ?_, fun x => ?_, htr⟩
  · rw [List.range_eq_range']
    exact hsent
  · rw [List.range_eq_range']
    exact hlog
  · by_cases hx : x < s.cfg.maxChannels
    · simpa only [hx, true_and] using hslot x (Nat.zero_le x) hx
    · have hsame := hpast x (.inr (not_lt.1 hx))
      simp only [hx, false_and, not_false_eq_true, and_true, hsame, accept_readyAt]

end

/-- Settles O35: the connection code's answer is the verdict, and taking it is traffic without a boundary call. -/
theorem selectPortReportsTheVerdict : Obligations.SelectPortReportsTheVerdict := by
  intro s sid port ok hacc hanswer
  have htake : (s.accept (.selectPort sid port)).tr.takeConnect.1 = ok := takeConnect_of_head hanswer
  have hconnect : connectPort (s.accept (.selectPort sid port)) =
      (if ok then .ok else raise .connectFail 0, (s.accept (.selectPort sid port)).setTr s.tr.takeConnect.2) := by
    rw [← htake]
    rfl
  obtain ⟨t, hrun, hresult, htr, hkept⟩ := runRouted_of_traffic hacc hconnect (.setTr _ _) rfl
  refine ⟨t, hrun, ?_, ?_, framesSent_eq_nil ?_, hkept⟩
  · rintro rfl
    exact resultOk_of_result hresult
  · rintro rfl
    exact resultErr_of_result hresult
  · obtain ⟨-, hlink⟩ := takeConnect_rx s.tr
    rw [htr]
    exact hlink

/-- Settles O36: the body is `invalidateSearch`, which writes the three registers and no other. -/
theorem freePortInvalidatesTheSearch : Obligations.FreePortInvalidatesTheSearch := by
  intro s sid port ⟨hwf, hfree, hsid⟩
  obtain ⟨hresult, hrest⟩ := (invalidateSearch_kept (s.accept (.freePort sid port))).delivered .ok hsid
  rw [exec_freePort]
  exact ⟨_, runRouted_accepted hwf hfree, resultOk_of_result hresult, rfl, rfl, rfl, rfl, rfl, rfl, rfl, hrest⟩

/-- Settles O37: adapterDetected is the probe, with its result delivered. -/
theorem adapterDetectedProbesEverySlot : Obligations.AdapterDetectedProbesEverySlot := by
  intro s sid ⟨hwf, hfree, hsid⟩ hlen
  obtain ⟨recs, hprobed⟩ := probe_probed sid .adapterDetected (.adapterDetected sid) hlen
  obtain ⟨hcursor, hvalid, hsstate, hlast⟩ := hprobed.invalidated
  rw [exec_adapterDetected]
  refine ⟨_, recs, runRouted_accepted hwf hfree, ?_⟩
  dsimp only
  generalize probe sid .adapterDetected (s.accept (.adapterDetected sid)) = r at *
  obtain ⟨hresult, hmemory, hrest⟩ := hprobed.kept.delivered (.okBool r.1) hsid
  refine ⟨resultOk_of_okBool hresult, ?_, hprobed.sent.delivered sid _, hprobed.log, hprobed.keys, hprobed.recorded,
    hprobed.answered, hprobed.tr, hcursor, hvalid, hsstate, hlast, hprobed.kept.readyLen, hmemory, hrest⟩
  rw [hresult]
  exact hprobed.result

/-- Settles O38: each of the five is `broadcast` of its command, and the slots' records are told one by one. -/
theorem filterOperationsBroadcast : Obligations.FilterOperationsBroadcast := by
  intro s sid n family i op cmd pay hi hn ⟨hwf, hfree, hsid⟩
  have hrun : exec i s = runRouted i sid (broadcast sid op cmd pay) s ∧
      respLenOf s.cfg cmd pay = (s.cfg.respLen.get cmd).toNat := by
    simp only [List.mem_cons, List.not_mem_nil, or_false, Prod.mk.injEq] at hi
    obtain ⟨rfl, rfl, rfl, rfl⟩ | ⟨rfl, rfl, rfl, rfl⟩ | ⟨rfl, rfl, rfl, rfl⟩ | ⟨rfl, rfl, rfl, rfl⟩ |
      ⟨rfl, rfl, rfl, rfl⟩ := hi
    all_goals exact ⟨rfl, rfl⟩
  obtain ⟨hexec, hexp⟩ := hrun
  have hasked := broadcast_asked sid op i (hexp.trans hn.symm)
  obtain ⟨hresult, hmemory, hrest⟩ := hasked.kept.delivered .ok hsid
  rw [hexec]
  refine ⟨_, _, runRouted_accepted hwf hfree, resultOk_of_result hresult, hasked.sent.delivered sid .ok, hasked.log,
    ?_, ?_, hasked.ready, hasked.tr, hasked.search, hmemory, hrest⟩
  · simp only [List.map_map, Function.comp_def]
  · intro rec hrec
    obtain ⟨c, -, rfl⟩ := List.mem_map.1 hrec
    refine ⟨slotRecord_skipped_iff c, fun hready => ⟨fun p hp => ?_, fun cause info hp => ?_⟩⟩
    · rw [slotRecord_outcome hready, hp, logOutcome]
    · rw [slotRecord_outcome hready, hp, logOutcome]

end Sys2Proof.Proofs.Router

/-! Frames and readiness (42_router_registry.md R161). `AsksReady` holds of every part of an operation but the probe and
the ping, and it composes; what findFirstDevice sends after its probe is told by the scan and by what the probe has
recorded. -/

namespace Sys2Proof.Proofs.ReadyFrames

open Sys2Proof Sys2Proof.Machine Sys2Proof.Proofs.DecodeEncode Sys2Proof.Proofs.RegisterWriters
open Sys2Proof.Proofs.Invariants Sys2Proof.Proofs.HostPort Sys2Proof.Proofs.FrameCodec
open Sys2Proof.Proofs.ReceiveStream Sys2Proof.Proofs.Router

section

variable {s t u : State}

/-- A request frame to a channel that is ready in `s`. -/
def ReadyFrame (s : State) (frame : List Byte) : Prop :=
  ∃ c cmd pay, s.readyAt c = true ∧ frame = wireFrame s.cfg (byteOf c) cmd pay

/-- From `s` to `t` every frame sent went to a channel that was ready in `s`. No ready flag rises, so that what the next
part finds ready was so in `s`. -/
structure AsksReady (s t : State) : Prop where
  cfg : t.cfg = s.cfg
  readyDown : ∀ x, t.readyAt x = true → s.readyAt x = true
  sent : ∃ frames, Sent s t frames ∧ ∀ frame ∈ frames, ReadyFrame s frame

theorem AsksReady.trans (h : AsksReady s t) (k : AsksReady t u) : AsksReady s u := by
  obtain ⟨hcfg, hdown, hframes, hsent, hready⟩ := h
  obtain ⟨kcfg, kdown, kframes, ksent, kready⟩ := k
  refine ⟨kcfg.trans hcfg, fun x hx => hdown x (kdown x hx), _, hsent.trans ksent, fun frame hmem => ?_⟩
  obtain hmem | hmem := List.mem_append.1 hmem
  · exact hready frame hmem
  · obtain ⟨c, cmd, pay, hc, rfl⟩ := kready frame hmem
    exact ⟨c, cmd, pay, hdown c hc, by rw [hcfg]⟩

/-- Nothing is sent where the transport is untouched. -/
theorem AsksReady.of_tr_eq (hcfg : t.cfg = s.cfg) (hdown : ∀ x, t.readyAt x = true → s.readyAt x = true)
    (htr : t.tr = s.tr) : AsksReady s t := ⟨hcfg, hdown, [], .none htr, nofun⟩

/-- An update of none of the configuration, the ready table and the transport. -/
theorem AsksReady.silent (hcfg : t.cfg = s.cfg) (hready : t.ready = s.ready) (htr : t.tr = s.tr) : AsksReady s t :=
  .of_tr_eq hcfg (fun x hx => by rwa [State.readyAt, hready] at hx) htr

/-! The exchange. -/

theorem exchangeCh_asksReady {c : Nat} (cmd : WireCmd) (pay : List Byte) (n : Nat) (hready : s.readyAt c = true) :
    AsksReady s (exchangeCh c cmd pay n s).2 := by
  obtain ⟨htraffic, hsent⟩ := exchangeCh_spec c cmd pay n s
  exact ⟨htraffic.cfg, htraffic.readyDown, _, hsent, List.forall_mem_singleton.2 ⟨c, cmd, pay, hready, rfl⟩⟩

theorem route1_asksReady (cmd : WireCmd) (pay : List Byte) (n : Nat) (s : State) :
    AsksReady s (route1 cmd pay n s).2 := by
  unfold route1
  split
  · rename_i hready
    exact exchangeCh_asksReady cmd pay n hready
  · exact .silent rfl rfl rfl

/-! The bodies of the routed operations. -/

/-- Asking the connection code sends no frame (R170). -/
theorem connectPort_asksReady (s : State) : AsksReady s (connectPort s).2 := by
  obtain ⟨-, hlink⟩ := takeConnect_rx s.tr
  obtain ⟨frames, hsent⟩ := connectPort_streamed s
  have hnone : frames = [] := hsent.frames.symm.trans (framesSent_eq_nil hlink)
  exact ⟨rfl, fun _ h => h, frames, hsent, hnone ▸ nofun⟩

theorem broadcast_asksReady (sid : Nat) (op : HostOp) (cmd : WireCmd) (pay : List Byte) (s : State) :
    AsksReady s (broadcast sid op cmd pay s).2 := by
  obtain ⟨hkept, -, hdown, hsent, -⟩ := broadcastOver_spec sid op cmd pay (channelsFrom s.cfg 0) List.nodup_range' s
  refine ⟨hkept.cfg, hdown, _, hsent, fun frame hmem => ?_⟩
  obtain ⟨c, hc, rfl⟩ := List.mem_map.1 hmem
  exact ⟨c, cmd, pay, List.of_mem_filter hc, rfl⟩

/-- A find sends its own command, and GET_ADDRESS after the flag, to the channel it is given (R228). -/
theorem findOn_asksReady (sid : Nat) (op : HostOp) (cmd : WireCmd) {c : Nat} (hready : s.readyAt c = true) :
    AsksReady s (findOn sid op c cmd s).2 := by
  obtain ⟨hkept, -, -, hdown, ⟨_, -, hsent⟩, -, -⟩ := findOn_spec sid op c cmd s
  refine ⟨hkept.cfg, hdown, _, hsent, List.forall_mem_cons.2 ⟨⟨c, cmd, [], hready, rfl⟩, fun frame hmem => ?_⟩⟩
  exact ⟨c, .getAddress, [], hready, List.eq_of_mem_replicate hmem⟩

theorem scanFrom_asksReady (sid : Nat) (op : HostOp) (start : Nat) (s : State) :
    AsksReady s (scanFrom sid op start s).2 := by
  obtain ⟨hkept, hdown, ⟨_, hsent, -, hframes⟩, -, -⟩ := scanOver_spec sid op (channelsFrom s.cfg start) s
  refine ⟨hkept.cfg, hdown, _, hsent, fun frame hmem => ?_⟩
  obtain ⟨c, -, hready, cmd, rfl⟩ := hframes frame hmem
  exact ⟨c, cmd, [], hready, rfl⟩

theorem findNext_asksReady (sid : Nat) (s : State) : AsksReady s (findNext sid s).2 := by
  have hstart : AsksReady s (s.setSState .searching) := .silent rfl rfl rfl
  unfold findNext
  dsimp only
  split
  · rename_i hready
    have hfind := hstart.trans (findOn_asksReady sid .findNextDevice .findNext hready)
    split
    · exact hfind.trans (.silent rfl rfl rfl)
    · exact hfind.trans (scanFrom_asksReady ..)
  · exact hstart.trans (scanFrom_asksReady ..)

theorem presentOver_asksReady (sid : Nat) (addr : DevAddr) (cs : List Nat) (s : State) :
    AsksReady s (presentOver sid addr cs s).2 := by
  have hpresented := presentOver_spec sid addr cs s
  obtain ⟨_, hsent, hframes⟩ := hpresented.sent
  refine ⟨hpresented.kept.cfg, hpresented.readyDown, _, hsent, fun frame hmem => ?_⟩
  obtain ⟨c, -, hready, hframe⟩ := hframes frame hmem
  exact ⟨c, .searchRom, _, hready, hframe⟩

theorem selectDevice_asksReady (sid : Nat) (addr : DevAddr) (s : State) : AsksReady s (selectDevice sid addr s).2 := by
  have hask := route1_asksReady .matchRom (addrBytes addr) (respLenOf s.cfg .matchRom (addrBytes addr)) s
  unfold selectDevice
  dsimp only
  split
  · exact hask
  · exact hask
  · split
    · exact hask
    · exact hask.trans (.silent rfl rfl rfl)

theorem moveBlock_asksReady (off n : Nat) (s : State) : AsksReady s (moveBlock off n s).2 := by
  have hask := route1_asksReady .dataBlock (memRead s off n) n s
  unfold moveBlock
  dsimp only
  split
  · exact hask.trans (.silent rfl rfl rfl)
  · exact hask
  · exact hask

/-! Whole instructions. -/

theorem runRouted_asksReady {i : Instr} {sid : Nat} {body : State → Verdict × State}
    (h : runRouted i sid body s = .next t) (hbody : ∀ v, AsksReady v (body v).2) : AsksReady s t := by
  obtain rfl | ⟨-, rfl⟩ := runRouted_next h
  · exact .silent rfl rfl rfl
  · have haccept : AsksReady s (s.accept i) := .silent rfl rfl rfl
    exact (haccept.trans (hbody _)).trans (.silent rfl rfl rfl)

theorem runWire_asksReady {i : Instr} {ch : Byte} {cmd : WireCmd} {pay : List Byte}
    (h : runWire i ch cmd pay s = .next t) : AsksReady s t := by
  unfold runWire at h
  split at h <;> cases h
  · rename_i hsent
    obtain ⟨-, hready⟩ := Bool.and_eq_true _ _ ▸ hsent
    exact (exchangeCh_asksReady cmd pay _ hready).trans (.silent rfl rfl rfl)
  · exact .silent rfl rfl rfl

theorem checkResponse_asksReady {ch status : Byte} {pay : List Byte} (h : checkResponse ch status pay s = .next t) :
    AsksReady s t := by
  obtain ⟨t', hnext, -, htr, -⟩ := checkResponse_spec ch status pay s
  cases hnext.symm.trans h
  obtain ⟨u, htraffic, rfl⟩ := checkResponse_traffic h
  exact .of_tr_eq htraffic.cfg htraffic.readyDown htr

/-- The arbiter sends nothing. -/
theorem runArbiter_asksReady {i : Instr} {sid : Nat} {body : State → State} (h : runArbiter i body s = .next t)
    (hbody : Arbitrated sid s (body s)) : AsksReady s t := by
  obtain rfl | rfl := runArbiter_next h
  · exact .silent rfl rfl rfl
  · obtain ⟨⟨_, _, _, hstate⟩, -⟩ := hbody
    exact .silent (hstate ▸ rfl) (hstate ▸ rfl) (hstate ▸ rfl)

/-- Every instruction but the ping and the two that probe sends frames to ready channels only (R161). -/
theorem exec_asksReady {i : Instr} (h : exec i s = .next t)
    (hprobe : hostOpOf i ∉ [some .adapterDetected, some .findFirstDevice]) (hping : ∀ ch, i ≠ .cmdPingChannel ch) :
    AsksReady s t := by
  cases i with
  | cmdPingChannel ch => exact absurd rfl (hping ch)
  | adapterDetected | findFirstDevice => exact absurd hprobe (by simp [hostOpOf])
  | cmdFindFirst | cmdFindNext | cmdGetAddress | cmdSetSearchOnlyAlarming | cmdSetNoResetSearch | cmdSetSearchAll
  | cmdPutBit | cmdGetByte | cmdGetBlock | cmdDataBlock | cmdReset | cmdPutByte | cmdTargetFamily
  | cmdTargetAllFamilies | cmdSearchRom | cmdMatchRom => exact runWire_asksReady h
  | cmdSetPowerNormal => cases h
  | respSuccess | respFailure | respOther => exact checkResponse_asksReady h
  | selectPort => exact runRouted_asksReady h connectPort_asksReady
  | freePort =>
    rw [exec_freePort] at h
    exact runRouted_asksReady h fun v => .silent rfl rfl rfl
  | findNextDevice sid => exact runRouted_asksReady h (findNext_asksReady sid)
  | getAddress sid off =>
    rw [exec_getAddress] at h
    exact runRouted_asksReady h fun v => .silent rfl rfl rfl
  | isPresent sid addr => exact runRouted_asksReady h fun v => presentOver_asksReady sid addr _ v
  | select sid addr => exact runRouted_asksReady h (selectDevice_asksReady sid addr)
  | reset =>
    rw [exec_reset] at h
    exact runRouted_asksReady h fun v => route1_asksReady _ _ _ v
  | putBit | getBit | putByte | getByte | getBlock => exact runRouted_asksReady h fun v => route1_asksReady _ _ _ v
  | dataBlock sid off n => exact runRouted_asksReady h (moveBlock_asksReady off n.toNat)
  | setSearchOnlyAlarmingDevices | setNoResetSearch | setSearchAllDevices | targetFamily | targetAllFamilies =>
    exact runRouted_asksReady h (broadcast_asksReady _ _ _ _)
  | beginExclusive sid blocking => exact runArbiter_asksReady h (beginExclusive_arbitrated sid blocking s)
  | endExclusive sid => exact runArbiter_asksReady h (endExclusive_arbitrated sid s)

/-- A channel that is ready has a number below 256, which its frames' channel byte holds whole (R21, R89). -/
theorem byteOf_toNat_of_ready {c : Nat} (hlen : s.ready.length ≤ 256) (hready : s.readyAt c = true) :
    (byteOf c).toNat = c := by
  have hlt : c < s.ready.length := by
    by_contra hpast
    exact Bool.noConfusion (hready.symm.trans (readyAt_eq_false_of_length_le (not_lt.1 hpast)))
  exact byteOf_toNat (by omega)

/-! The scan after the probe (R223). -/

theorem findFirst_snd (sid : Nat) (s : State) : (findFirst sid s).2 =
    (scanFrom sid .findFirstDevice 0 (probe sid .findFirstDevice s).2).2 := rfl

/-- A request frame to a channel whose ping is recorded as `Ok` in `recs`. -/
def AnsweredFrame (c : Config) (recs : List LogRec) (frame : List Byte) : Prop :=
  ∃ ch cmdbyte len pay, frame = c.marker :: ch :: cmdbyte :: len :: pay ∧
    ∃ rec ∈ recs, rec.ch = ch.toNat ∧ rec.cmd = .pingChannel ∧ rec.outcome = .ok

/-- A scan after a probe sends its frames after the pings, to channels that the probe has left ready. -/
theorem scanFrom_after_probe {sid : Nat} {op : HostOp} {i : Instr} {r : Bool × State} {recs : List LogRec} (start : Nat)
    (h : Probed sid op i s r recs) (hlen : s.ready.length ≤ 256) :
    ∃ more frames, (scanFrom sid op start r.2).2.log = s.log ++ (recs ++ more) ∧
      Sent (s.accept i) (scanFrom sid op start r.2).2
        ((List.range s.cfg.maxChannels).map (fun c => wireFrame s.cfg (byteOf c) .pingChannel []) ++ frames) ∧
      ∀ frame ∈ frames, AnsweredFrame s.cfg (recs ++ more) frame := by
  obtain ⟨-, -, frames, hsent, hframes⟩ := scanFrom_asksReady sid op start r.2
  obtain ⟨more, hmore⟩ := scanOver_log sid op (channelsFrom r.2.cfg start) r.2
  refine ⟨more, frames, ?_, h.sent.trans hsent, fun frame hmem => ?_⟩
  · rw [← List.append_assoc, ← h.log]
    exact hmore
  · obtain ⟨c, cmd, pay, hready, rfl⟩ := hframes frame hmem
    obtain ⟨rec, hrec, hch, hrecorded⟩ := h.record_of_ready hready
    refine ⟨_, _, _, _, by rw [h.kept.cfg]; rfl, rec, List.mem_append_left _ hrec, ?_, hrecorded⟩
    rw [hch, byteOf_toNat_of_ready (h.kept.readyLen.trans_le hlen) hready]

end

/-- Settles O52: every instruction of the first part is `AsksReady`; findFirstDevice sends the probe's pings, as many as
there are channels, and then only what its scan sends. -/
theorem noFrameGoesToUnreadyChannels : Obligations.NoFrameGoesToUnreadyChannels := by
  refine ⟨fun s t i frame h hlen hprobe hping hmem => ?_, fun s t sid h ⟨_, hmax, _⟩ hlen => ?_⟩
  · obtain ⟨-, -, frames, hsent, hframes⟩ := exec_asksReady h hprobe hping
    obtain ⟨c, cmd, pay, hready, rfl⟩ := hframes frame (hsent.frames ▸ hmem)
    exact ⟨_, _, _, _, rfl, by rwa [byteOf_toNat_of_ready hlen hready]⟩
  · obtain rfl | ⟨-, rfl⟩ := runRouted_next (body := findFirst sid) h
    · exact ⟨[], (List.append_nil _).symm, by simp [framesSent_eq_nil]⟩
    · obtain ⟨recs, hprobed⟩ := probe_probed sid .findFirstDevice (.findFirstDevice sid) hlen
      obtain ⟨more, frames, hlog, hsent, hframes⟩ := scanFrom_after_probe 0 hprobed (hlen.trans_le hmax)
      refine ⟨recs ++ more, hlog, fun frame hmem => hframes frame ?_⟩
      rwa [findFirst_snd, hsent.delivered, List.drop_left' (by rw [List.length_map, List.length_range])] at hmem

end Sys2Proof.Proofs.ReadyFrames

/-! Transfers whose exchange is answered (43_transfer_engine.md R190 to R199). A body answers a payload in one way and
an error in another; both are told from what the exchange gives, so that the obligations differ in the command, its
payload and the field of the result they speak of. -/

namespace Sys2Proof.Proofs.AnsweredTransfers

open Sys2Proof Sys2Proof.Machine Sys2Proof.Proofs.RegisterWriters Sys2Proof.Proofs.BufferSpace
open Sys2Proof.Proofs.FailingTransfers Sys2Proof.Proofs.FrameCodec Sys2Proof.Proofs.UnreadyChannels

section

variable {s t u : State} {i : Instr} {sid d : Nat} {cmd : WireCmd} {pay reply : List Byte} {n : Nat} {v : Verdict}
variable {body : State → Verdict × State} {cause : Cause} {kind : ErrKind} {info : BitVec 16}

/-! The result of a session (R93, R94). -/

/-- A verdict of status `OK` names no error. -/
theorem resultOk_of_status (h : (t.session sid).result = resultOf d v) (hok : (resultOf d v).status = .ok) :
    ResultOk t sid := by
  rw [ResultOk, h]
  cases v with
  | ok | okBool | okByte | okBlock => exact ⟨rfl, rfl, rfl⟩
  | skipped | skippedBool | err => nomatch hok

/-- `t` is the end of an operation accepted in `s` whose body ended with `r` (R93, R270). -/
structure Ended (sid : Nat) (r : Verdict × State) (s t : State) : Prop where
  result : (t.session sid).result = resultOf s.draws r.1
  tr : t.tr = r.2.tr
  ready : t.ready = r.2.ready
  log : t.log = r.2.log
  search : SameSearch r.2 t
  kept : SameMemory s t ∧ SameTokens s t ∧ SameOthers sid s t ∧ SamePort s t ∧ Idle t

/-- An accepted operation whose body keeps what `Kept` says ends as `Ended` says. -/
theorem exec_ends (hacc : Accepted s i sid) (hexec : exec i s = runRouted i sid body s)
    (hkept : Kept (s.accept i) (body (s.accept i)).2) :
    ∃ t, exec i s = .next t ∧ Ended sid (body (s.accept i)) s t := by
  obtain ⟨hwf, hfree, hsid⟩ := hacc
  obtain ⟨hresult, hrest⟩ := hkept.delivered (body (s.accept i)).1 hsid
  exact ⟨_, hexec.trans (runRouted_accepted hwf hfree),
    { result := hresult, tr := rfl, ready := rfl, log := rfl, search := ⟨rfl, rfl, rfl, rfl⟩, kept := hrest }⟩

/-- A block is delivered from `rdata[0]` on, and its length in `rlen` (R195). -/
theorem resultOf_okBlock (hlen : reply.length ≤ 255) :
    (resultOf d (.okBlock reply)).rlen = byteOf reply.length ∧
      (resultOf d (.okBlock reply)).rdata.take reply.length = reply ∧
      (resultOf d (.okBlock reply)).rdata.length = 255 := by
  refine ⟨rfl, List.take_left, ?_⟩
  simp only [resultOf, freeResult, List.length_append, List.length_drop, List.length_map, List.length_range]
  omega

theorem byteOf_byte (b : Byte) : byteOf b.toNat = b := by
  rw [byteOf, BitVec.ofNat_toNat, BitVec.setWidth_eq]

theorem byte_le (b : Byte) : b.toNat ≤ 255 := Nat.le_of_lt_succ b.isLt

/-! Payloads. -/

/-- `r` is what a body run from `u` ends with that, whatever payload its exchange gives, reports `onOk` of the payload
and changes nothing after the exchange. -/
def Reports (r : Verdict × State) (cmd : WireCmd) (pay : List Byte) (n : Nat) (onOk : List Byte → Verdict) (u : State) :
    Prop :=
  ∀ p, (route1 cmd pay n u).1 = .ok p → r = (onOk p, (route1 cmd pay n u).2)

theorem transfer_reports {onOk : List Byte → Verdict} {onSkip : Verdict} :
    Reports (transfer cmd pay n onOk onSkip u) cmd pay n onOk u := by
  intro p hok
  simp only [transfer, hok, transferVerdict]

theorem resetVerdict_reports :
    Reports (resetVerdict (route1 cmd pay n u).1, (route1 cmd pay n u).2) cmd pay n (fun _ => .okByte 1) u := by
  intro p hok
  simp only [hok, resetVerdict]

/-- select compares its flag with 1, and not with the configured flag byte (R199, R88 b). -/
theorem selectDevice_reports {addr : DevAddr} :
    Reports (selectDevice sid addr u) .matchRom (addrBytes addr) (respLenOf u.cfg .matchRom (addrBytes addr))
      (fun p => .okBool (soleByte u.draws u.cursor p == 0x01)) u := by
  intro p hok
  simp only [selectDevice, hok]

theorem route1_ready (hready : s.readyAt s.cursor = true) :
    route1 cmd pay n s = exchangeCh s.cursor cmd pay n s := if_pos hready

/-- Routing to a ready channel whose device answers in full with status SUCCESS (R162, R115). -/
theorem route1_answered (hc : s.cfg.Wf) (hready : s.readyAt s.cursor = true) (hn : n ≤ 255) (hlen : reply.length = n)
    (ha : Answers s (encodeResponse (byteOf s.cursor) s.cfg.stSuccess reply)) :
    (route1 cmd pay n s).1 = .ok reply ∧ (route1 cmd pay n s).2.ready = s.ready ∧
      Sent s (route1 cmd pay n s).2 [wireFrame s.cfg (byteOf s.cursor) cmd pay] := by
  obtain ⟨hok, -⟩ := exchangeCh_answered (c := s.cursor) (cmd := cmd) (pay := pay) (tail := []) hc hlen
    (hlen.trans_le hn) (by rwa [List.append_nil])
  obtain ⟨-, hsent⟩ := exchangeCh_spec s.cursor cmd pay n s
  rw [route1_ready hready]
  exact ⟨hok, exchangeCh_ok_ready hok, hsent⟩

/-- A routed operation that reports its payload, on a device that answers in full with status SUCCESS: one frame goes
out and no register of the core changes (R190, R93). -/
theorem exec_reports {onOk : List Byte → Verdict} (hc : s.cfg.Wf) (hacc : Accepted s i sid)
    (hexec : exec i s = runRouted i sid body s) (hready : s.readyAt s.cursor = true) (hn : n ≤ 255)
    (hlen : reply.length = n) (ha : Answers s (encodeResponse (byteOf s.cursor) s.cfg.stSuccess reply))
    (hbody : Reports (body (s.accept i)) cmd pay n onOk (s.accept i)) :
    ∃ t, exec i s = .next t ∧ (t.session sid).result = resultOf s.draws (onOk reply) ∧
      framesSent s t = [wireFrame s.cfg (byteOf s.cursor) cmd pay] ∧ SameMemory s t ∧ TransferKept sid s t := by
  obtain ⟨hok, hsame, hsent⟩ := route1_answered (s := s.accept i) (cmd := cmd) (pay := pay) hc hready hn hlen ha
  obtain ⟨htraffic, -⟩ := route1_spec cmd pay n (s.accept i)
  obtain ⟨t, hrun, hresult, htr, hkept⟩ := runRouted_of_traffic hacc (hbody reply hok) htraffic hsame
  exact ⟨t, hexec.trans hrun, hresult, (hsent.of_tr rfl htr).frames, hkept⟩

/-! dataBlock (R196). -/

theorem moveBlock_of_ok {off : Nat} (hok : (route1 .dataBlock (memRead u off n) n u).1 = .ok reply) :
    moveBlock off n u = (.ok, memWrite (route1 .dataBlock (memRead u off n) n u).2 off reply) := by
  simp only [moveBlock, hok]

/-- A store to `BUF` is no part of what a transfer keeps. -/
theorem transferKept_memWrite (off : Nat) (block : List Byte) (h : TransferKept sid s t) :
    TransferKept sid s (memWrite t off block) := h

/-- dataBlock on a device that answers in full with status SUCCESS is a transfer that leaves `BUF` alone, and then the
store of the answer (R196, R71). -/
theorem execDataBlock_answered {off : Nat} {b : Byte} {block : List Byte} (hc : s.cfg.Wf)
    (hacc : Accepted s (.dataBlock sid off b) sid) (hready : s.readyAt s.cursor = true)
    (hlen : block.length = b.toNat)
    (ha : Answers s (encodeResponse (byteOf s.cursor) s.cfg.stSuccess block)) :
    ∃ t, exec (.dataBlock sid off b) s = .next (memWrite t off block) ∧
      (t.session sid).result = resultOf s.draws .ok ∧
      framesSent s t = [wireFrame s.cfg (byteOf s.cursor) .dataBlock (memRead s off b.toNat)] ∧ t.buf = s.buf ∧
      TransferKept sid s t := by
  obtain ⟨hwf, hfree, hsid⟩ := hacc
  obtain ⟨hok, hsame, hsent⟩ := route1_answered (s := s.accept (.dataBlock sid off b)) (cmd := .dataBlock)
    (pay := memRead s off b.toNat) hc hready (byte_le b) hlen ha
  obtain ⟨htraffic, -⟩ := route1_spec .dataBlock (memRead s off b.toNat) b.toNat (s.accept (.dataBlock sid off b))
  obtain ⟨hlog, hsearch, -, htokens, hothers, hport, hidle⟩ := failureKept_deliver (sid := sid) .ok htraffic
  obtain ⟨hresult, -⟩ := htraffic.kept.delivered .ok hsid
  refine ⟨_, ?_, hresult, hsent.delivered sid .ok, htraffic.buf, hsame, hlog, hsearch, htokens, hothers, hport, hidle⟩
  have hmove := moveBlock_of_ok (u := s.accept (.dataBlock sid off b)) (off := off) hok
  have hrun := runRouted_accepted (sid := sid) (body := moveBlock off b.toNat) hwf hfree
  rw [hmove] at hrun
  exact hrun

/-! Errors. -/

/-- Each cause stands with the kind R261 gives it. -/
theorem kindOf_of_mem_exchangeCauses (h : (cause, kind) ∈ exchangeCauses) : kind = kindOf cause := by
  simp only [exchangeCauses, List.mem_cons, List.not_mem_nil, or_false, Prod.mk.injEq] at h
  obtain ⟨rfl, rfl⟩ | ⟨rfl, rfl⟩ | ⟨rfl, rfl⟩ | ⟨rfl, rfl⟩ | ⟨rfl, rfl⟩ | ⟨rfl, rfl⟩ | ⟨rfl, rfl⟩ := h
  all_goals rfl

/-- A routed operation that surfaces errors, told by what the exchange gives before the operation is accepted (R190,
R121). -/
theorem exec_fails {kindFor : Cause → ErrKind} (hacc : Accepted s i sid)
    (hexec : exec i s = runRouted i sid body s) (hready : s.readyAt s.cursor = true)
    (hbody : Surfaces (body (s.accept i)) cmd pay n kindFor (s.accept i)) (hmem : (cause, kind) ∈ exchangeCauses)
    (herr : exchangeCh s.cursor cmd pay n s = (.err cause info, u)) :
    ∃ t, exec i s = .next t ∧ ResultErr t sid (kindFor cause) cause info ∧ t.tr = u.tr ∧
      t.ready = (if s.cfg.downgrade = true ∧ kind = .communication then s.ready.set s.cursor false else s.ready) ∧
      FailureKept sid s t := by
  obtain ⟨hres, htr, hset⟩ := exchangeCh_fails (s := s) (s' := s.accept i) rfl rfl herr
  have hroute : route1 cmd pay n (s.accept i) = exchangeCh s.cursor cmd pay n (s.accept i) := route1_ready hready
  obtain ⟨t, hrun, hresult, ht, htready, hkept⟩ := runRouted_surfaces hacc hbody (by rw [hroute]; exact hres)
  rw [hroute] at ht htready
  rw [kindOf_of_mem_exchangeCauses hmem]
  exact ⟨t, hexec.trans hrun, hresult, ht.trans htr, htready.trans hset, hkept⟩

/-- A routed operation that surfaces errors, told by what `Validate` says of the response (R115, R190). -/
theorem runRouted_validates {ch status : Byte} (hacc : Accepted s i sid) (hready : s.readyAt s.cursor = true)
    (hbody : Surfaces (body (s.accept i)) cmd pay n kindOf (s.accept i)) (hlen : reply.length ≤ 255)
    (ha : Answers s (encodeResponse ch status reply)) :
    ∃ t, runRouted i sid body s = .next t ∧
      ∀ cause info, validate s.cfg (byteOf s.cursor) n ch status reply = .err cause info →
        ResultErr t sid (kindOf cause) cause info := by
  have ⟨hwf, hfree, _⟩ := hacc
  have hnext := runRouted_accepted (sid := sid) (body := body) hwf hfree
  refine ⟨_, hnext, fun cause info hinvalid => ?_⟩
  have herr : (route1 cmd pay n (s.accept i)).1 = .err cause info := by
    obtain ⟨hanswer, -⟩ := exchange_answered (ch := byteOf s.cursor) (cmd := cmd) (pay := pay) (n := n)
      (s := s.accept i) (tail := []) hlen (by rwa [List.append_nil])
    rw [route1_ready (s := s.accept i) hready]
    exact hanswer.trans hinvalid
  obtain ⟨t, hrun, hresult, -⟩ := runRouted_surfaces hacc hbody herr
  cases hnext.symm.trans hrun
  exact hresult

end

/-- Settles O19: a transfer that reports `OK` whatever the payload. -/
theorem putBitCompletes : Obligations.PutBitCompletes := by
  intro s sid v reply hc hacc hready hlen ha
  obtain ⟨t, hrun, hresult, hkept⟩ := exec_reports hc hacc rfl hready (byte_le _) hlen ha transfer_reports
  exact ⟨t, hrun, resultOk_of_status hresult rfl, hkept⟩

/-- Settles O20: the transfer of PUT_BIT with payload 1, which reports whether its byte is nonzero. -/
theorem getBitCompletes : Obligations.GetBitCompletes := by
  intro s sid reply hc hacc hready hlen ha
  obtain ⟨t, hrun, hresult, hkept⟩ := exec_reports hc hacc rfl hready (byte_le _) hlen ha transfer_reports
  refine ⟨t, hrun, resultOk_of_status hresult rfl, fun b hb => ?_, hkept⟩
  subst hb
  rw [hresult]
  exact bne_iff_ne

/-- Settles O21: a transfer that reports `OK` whatever the payload. -/
theorem putByteCompletes : Obligations.PutByteCompletes := by
  intro s sid v reply hc hacc hready hlen ha
  obtain ⟨t, hrun, hresult, hkept⟩ := exec_reports hc hacc rfl hready (byte_le _) hlen ha transfer_reports
  exact ⟨t, hrun, resultOk_of_status hresult rfl, hkept⟩

/-- Settles O22: a transfer that reports its byte. -/
theorem getByteCompletes : Obligations.GetByteCompletes := by
  intro s sid reply hc hacc hready hlen ha
  obtain ⟨t, hrun, hresult, hkept⟩ := exec_reports hc hacc rfl hready (byte_le _) hlen ha transfer_reports
  refine ⟨t, hrun, resultOk_of_status hresult rfl, fun b hb => ?_, hkept⟩
  subst hb
  rw [hresult]
  rfl

/-- The answer of a block whose length stands as the operand `n`. -/
theorem encodeResponse_block {n : Byte} {block : List Byte} (ch status : Byte) (hlen : block.length = n.toNat) :
    encodeResponse ch status block = [ch, status, n] ++ block := by
  rw [encodeResponse, hlen, byteOf_byte]
  rfl

/-- Settles O23: a transfer that reports its block, which is as long as the operand says. -/
theorem getBlockCompletes : Obligations.GetBlockCompletes := by
  intro s sid n block hc hacc hready hlen ha
  rw [← encodeResponse_block _ _ hlen] at ha
  obtain ⟨t, hrun, hresult, hkept⟩ := exec_reports hc hacc rfl hready (byte_le n) hlen ha transfer_reports
  obtain ⟨hrlen, hrdata, htotal⟩ := resultOf_okBlock (d := s.draws) (hlen.trans_le (byte_le n))
  rw [hlen] at hrlen hrdata
  refine ⟨t, hrun, resultOk_of_status hresult rfl, ?_, ?_, ?_, hkept⟩
  · rw [hresult, hrlen, byteOf_byte]
  · rw [hresult, hrdata]
  · rw [hresult, htotal]

/-- Settles O24: the transfer leaves `BUF` alone, and the store of the answer writes the region and nothing else. -/
theorem dataBlockCompletes : Obligations.DataBlockCompletes := by
  intro s sid off n block hc hmem hacc hready hlen ha
  rw [← encodeResponse_block _ _ hlen] at ha
  obtain ⟨t, hrun, hresult, hframes, hbuf, hkept⟩ := execDataBlock_answered hc hacc hready hlen ha
  have hcanon : Memory.wf t.buf = true := by rw [hbuf, hmem]
  refine ⟨_, hrun, resultOk_of_status (t := t) hresult rfl, ?_, ?_, fun a ha => ?_, transferKept_memWrite _ _ hkept⟩
  · refine hframes.trans ?_
    rw [wireFrame, encodeRequest, memRead_length, byteOf_byte]
    rfl
  · rw [← hlen]
    exact memRead_memWrite hcanon off block
  · rw [read_memWrite_outside hcanon (by rwa [hlen]), hbuf]

/-- Settles O25: reset reports 1 whatever the payload. -/
theorem resetCompletes : Obligations.ResetCompletes := by
  intro s sid reply hc hacc hready hlen ha
  obtain ⟨t, hrun, hresult, hkept⟩ := exec_reports hc hacc (exec_reset sid s) hready (byte_le _) hlen ha
    resetVerdict_reports
  exact ⟨t, hrun, resultOk_of_status hresult rfl, by rw [hresult]; rfl, hkept⟩

/-- Settles O26: select reports whether its byte is 1. -/
theorem selectCompletes : Obligations.SelectCompletes := by
  intro s sid addr reply hc hacc hready hlen ha
  obtain ⟨t, hrun, hresult, hkept⟩ := exec_reports hc hacc rfl hready (byte_le _) hlen ha selectDevice_reports
  refine ⟨t, hrun, resultOk_of_status hresult rfl, fun f hf => ?_, hkept⟩
  subst hf
  rw [hresult]
  exact beq_iff_eq

/-- Settles O28: each of the six surfaces the error of its exchange under the kind R261 gives it; what the device
answers gives an error by the clauses of `Validate`. -/
theorem transferFailuresAreSurfaced : Obligations.TransferFailuresAreSurfaced := by
  intro s sid off v b i cmd sent explen hi hacc hready
  have hrun : ∃ body, exec i s = runRouted i sid body s ∧
      Surfaces (body (s.accept i)) cmd sent explen kindOf (s.accept i) := by
    simp only [List.mem_cons, List.not_mem_nil, or_false, Prod.mk.injEq] at hi
    obtain ⟨rfl, rfl, rfl, rfl⟩ | ⟨rfl, rfl, rfl, rfl⟩ | ⟨rfl, rfl, rfl, rfl⟩ | ⟨rfl, rfl, rfl, rfl⟩ |
      ⟨rfl, rfl, rfl, rfl⟩ | ⟨rfl, rfl, rfl, rfl⟩ := hi
    · exact ⟨_, rfl, transfer_surfaces⟩
    · exact ⟨_, rfl, transfer_surfaces⟩
    · exact ⟨_, rfl, transfer_surfaces⟩
    · exact ⟨_, rfl, transfer_surfaces⟩
    · exact ⟨_, rfl, transfer_surfaces⟩
    · exact ⟨_, rfl, moveBlock_surfaces⟩
  obtain ⟨body, hexec, hbody⟩ := hrun
  refine ⟨fun u cause kind info hmem herr => ?_, fun ch status pay ⟨_, _, _, _, _, hstatus⟩ hlen ha => ?_⟩
  · obtain rfl := kindOf_of_mem_exchangeCauses hmem
    exact exec_fails hacc hexec hready hbody hmem herr
  · obtain ⟨t, hnext, herr⟩ := runRouted_validates hacc hready hbody hlen ha
    refine ⟨t, hexec.trans hnext, fun hch => ?_, fun hch hfailure => ?_, fun hch hfailure hsuccess => ?_,
      fun hch hsuccess hwrong => ?_⟩
    · exact herr _ _ (validate_channelMismatch hch)
    · subst hch hfailure
      exact herr _ _ (validate_failure ..)
    · subst hch
      exact herr _ _ (validate_other hsuccess hfailure)
    · subst hch hsuccess
      exact herr _ _ (validate_lengthMismatch hstatus hwrong)

/-- reset has no error of another kind (R197, 90_conflicts.md C7). -/
theorem resultOf_resetVerdict_kind {d : Nat} {r : XRes} (h : (resultOf d (resetVerdict r)).status = .err) :
    (resultOf d (resetVerdict r)).kind = some .communication := by
  cases r with
  | ok | skipped => nomatch h
  | err => rfl

/-- Settles O31: reset surfaces every cause as a communication error, and its verdict has no other error. -/
theorem resetReportsCommunicationErrors : Obligations.ResetReportsCommunicationErrors := by
  refine ⟨fun s u sid cause kind info hacc hready hmem herr => ?_, fun s t sid hacc hnext herr => ?_⟩
  · exact exec_fails hacc (exec_reset sid s) hready resetVerdict_surfaces hmem herr
  · obtain ⟨htraffic, -⟩ := route1_spec .reset [] (respLenOf s.cfg .reset []) (s.accept (.reset sid))
    obtain ⟨t', hrun, hended⟩ := exec_ends hacc (exec_reset sid s) htraffic.kept
    cases hnext.symm.trans hrun
    rw [hended.result] at herr ⊢
    exact resultOf_resetVerdict_kind herr

end Sys2Proof.Proofs.AnsweredTransfers

/-! select and isPresent (43_transfer_engine.md R198 to R200). isPresent's loop is told from its first ready channel on:
the channels before it are passed by (`presentOver_skip`, `presentOver_pass`), and then it finds the device there, or
the exchange fails and the policy decides. -/

namespace Sys2Proof.Proofs.Presence

open Sys2Proof Sys2Proof.Machine Sys2Proof.Proofs.Router Sys2Proof.Proofs.AnsweredTransfers

section

variable {s u w : State} {i : Instr} {sid c : Nat} {addr : DevAddr} {cs : List Nat} {cmd : WireCmd}
variable {cause : Cause} {info : BitVec 16}

theorem exec_isPresent (sid : Nat) (addr : DevAddr) (s : State) : exec (.isPresent sid addr) s =
    runRouted (.isPresent sid addr) sid (fun t => presentOver sid addr (channelsFrom t.cfg 0) t) s := rfl

/-- isPresent ends as its loop over all channels does. -/
theorem execIsPresent_ends (hacc : Accepted s (.isPresent sid addr) sid) :
    ∃ t, exec (.isPresent sid addr) s = .next t ∧
      Ended sid (presentOver sid addr (channelsFrom s.cfg 0) (s.accept (.isPresent sid addr))) s t :=
  exec_ends hacc (exec_isPresent sid addr s) (presentOver_spec ..).kept

/-! The first ready channel. -/

/-- isPresent's exchange with channel `c` (R198). -/
abbrev askPresence (addr : DevAddr) (c : Nat) (s : State) : XRes × State :=
  exchangeCh c .searchRom (addrBytes addr) (respLenOf s.cfg .searchRom (addrBytes addr)) (s.setCi c)

theorem presentOver_found (hready : s.readyAt c = true) (hflag : (askPresence addr c s).1 = .ok [s.cfg.flagByte]) :
    presentOver sid addr (c :: cs) s = (.okBool true, (askPresence addr c s).2.setCursor 0) := by
  simp only [presentOver, setCi_readyAt, hready, ite_true, hflag, soleByte_one, flagTrue, beq_self_eq_true]

theorem presentOver_raise (hready : s.readyAt c = true) (hpolicy : s.cfg.presencePolicy = .raise)
    (herr : (askPresence addr c s).1 = .err cause info) :
    presentOver sid addr (c :: cs) s = (raise cause info, (askPresence addr c s).2.setCursor 0) := by
  simp only [presentOver, setCi_readyAt, hready, ite_true, herr, hpolicy]

theorem presentOver_asNotFound (hready : s.readyAt c = true) (hpolicy : s.cfg.presencePolicy = .asNotFound)
    (herr : (askPresence addr c s).1 = .err cause info) :
    presentOver sid addr (c :: cs) s = presentOver sid addr cs
      (((askPresence addr c s).2.setCursor 0).logExchange sid .isPresent c .searchRom (.err cause info)) := by
  simp only [presentOver, setCi_readyAt, hready, ite_true, herr, hpolicy]

theorem askPresence_spec (addr : DevAddr) (c : Nat) (s : State) :
    Traffic s (askPresence addr c s).2 ∧
      Sent s (askPresence addr c s).2 [wireFrame s.cfg (byteOf c) .searchRom (addrBytes addr)] := by
  obtain ⟨htraffic, hsent⟩ := exchangeCh_spec c .searchRom (addrBytes addr)
    (respLenOf s.cfg .searchRom (addrBytes addr)) (s.setCi c)
  exact ⟨(Traffic.setSeq s { s.seq with ci := c } rfl).trans htraffic, hsent.of_tr rfl rfl⟩

/-- A device whose match flag stands in the stream by the next read is found (R198, R147). -/
theorem presentOver_matches (hc : s.cfg.Wf) (hone : s.cfg.respLen.searchRom = 1) (hready : s.readyAt c = true)
    (hwrite : s.tr.writeAns.head? = some true) (hflush : s.tr.flushAns.head? = some true)
    (hstand : flagAnswer s.cfg (fun _ => s.cfg.flagByte) c <+: s.tr.rx ++ s.tr.takeArrival.1) :
    ∃ e, presentOver sid addr (c :: cs) s = (.okBool true, e.setCursor 0) ∧ Traffic s e ∧ e.ready = s.ready ∧
      Sent s e [wireFrame s.cfg (byteOf c) .searchRom (addrBytes addr)] := by
  obtain ⟨hflag, -⟩ := exchangeCh_standing (s := s.setCi c) (c := c) (cmd := .searchRom) (pay := addrBytes addr)
    (rpay := [s.cfg.flagByte]) (tail := []) (n := respLenOf s.cfg .searchRom (addrBytes addr)) hc
    (by simp only [respLenOf, hone]; rfl) (by simp) hwrite hflush (by rwa [List.append_nil])
  obtain ⟨htraffic, hsent⟩ := askPresence_spec addr c s
  exact ⟨_, presentOver_found hready hflag, htraffic, exchangeCh_ok_ready hflag, hsent⟩

/-! Failing exchanges (R200, R121). -/

/-- The ready table after an exchange with channel `c` has failed with `cause` (R121). -/
abbrev readyAfterFailure (s : State) (c : Nat) (cause : Cause) : List Bool :=
  if s.cfg.downgrade = true ∧ kindOf cause = .communication then s.ready.set c false else s.ready

/-- An exchange with channel `c` that fails with `cause` takes `s` to `e`, and leaves the transport as in `u`. -/
structure AskedInVain (cmd : WireCmd) (addr : DevAddr) (c : Nat) (cause : Cause) (s u e : State) : Prop where
  kept : Kept s e
  search : SameSearch s e
  log : e.log = s.log
  tr : e.tr = u.tr
  ready : e.ready = readyAfterFailure s c cause
  sent : Sent s e [wireFrame s.cfg (byteOf c) cmd (addrBytes addr)]

theorem sameSearch_trans (h : SameSearch s u) (k : SameSearch u w) : SameSearch s w := by
  obtain ⟨hcursor, hlast, hvalid, hsstate⟩ := h
  obtain ⟨kcursor, klast, kvalid, ksstate⟩ := k
  exact ⟨kcursor.trans hcursor, klast.trans hlast, kvalid.trans hvalid, ksstate.trans hsstate⟩

theorem sameSearch_of_traffic (h : Traffic s u) : SameSearch s u :=
  ⟨h.cursor, h.lastAddr, h.addrValid, h.sstate⟩

/-- What an exchange fails with in `s₀` it fails with in `w`, reached from `s` with nothing sent (R120). -/
theorem exchangeCh_inVain {s₀ : State} {n : Nat} (hcfg : s.cfg = s₀.cfg) (htr : w.tr = s₀.tr) (hstr : s.tr = s₀.tr)
    (hkept : Kept s w) (hsearch : SameSearch s w) (hsame : w.ready = s.ready) (hlog : w.log = s.log)
    (herr : exchangeCh c cmd (addrBytes addr) n s₀ = (.err cause info, u)) :
    (exchangeCh c cmd (addrBytes addr) n w).1 = .err cause info ∧
      AskedInVain cmd addr c cause s u (exchangeCh c cmd (addrBytes addr) n w).2 := by
  obtain ⟨hres, hutr, hdown⟩ := exchangeCh_fails (s := s₀) (s' := w) (hkept.cfg.trans hcfg) htr herr
  obtain ⟨htraffic, hsent⟩ := exchangeCh_spec c cmd (addrBytes addr) n w
  rw [hkept.cfg] at hsent
  exact ⟨hres, {
    kept := hkept.trans htraffic.kept
    search := sameSearch_trans hsearch (sameSearch_of_traffic htraffic)
    log := htraffic.log.trans hlog
    tr := hutr
    ready := by rw [hdown, readyAfterFailure, hsame, hcfg]
    sent := hsent.of_tr (hstr.trans htr.symm) rfl }⟩

/-- A channel past the one that was asked is as ready as it was. -/
theorem AskedInVain.readyAt {e : State} (h : AskedInVain cmd addr c cause s u e) {x : Nat} (hx : c < x) :
    e.readyAt x = s.readyAt x := by
  rw [State.readyAt, h.ready, readyAfterFailure]
  split
  · rw [List.getD_eq_getElem?_getD, List.getElem?_set_ne (by omega), ← List.getD_eq_getElem?_getD]
    rfl
  · rfl

/-- Where the first ready channel's exchange fails, isPresent ends there or goes on behind it, as the policy says (R198,
R200). -/
theorem presentOver_fails (i : Instr) (hready : s.readyAt c = true) (hlt : c < s.cfg.maxChannels)
    (hfirst : ∀ x, x < c → s.readyAt x = false)
    (herr : exchangeCh c .searchRom (addrBytes addr) s.cfg.respLen.searchRom.toNat s = (.err cause info, u)) :
    ∃ e, AskedInVain .searchRom addr c cause (s.accept i) u e ∧
      (s.cfg.presencePolicy = .raise →
        presentOver sid addr (channelsFrom s.cfg 0) (s.accept i) = (raise cause info, e.setCursor 0)) ∧
      (s.cfg.presencePolicy = .asNotFound →
        presentOver sid addr (channelsFrom s.cfg 0) (s.accept i) = presentOver sid addr (channelsFrom s.cfg (c + 1))
          ((e.setCursor 0).logExchange sid .isPresent c .searchRom (.err cause info))) := by
  obtain ⟨w, hskip, hkept, hsearch, htr, hsame, hlog⟩ := presentOver_skip sid addr
    (List.range' 0 (c - 0)) (c :: channelsFrom s.cfg (c + 1)) (s.accept i)
    (fun x hx => hfirst x (by simp only [List.mem_range'_1] at hx; omega))
  rw [← channelsFrom_split s.cfg (Nat.zero_le c) hlt] at hskip
  have hcfg : w.cfg = s.cfg := hkept.cfg
  have hwready : w.readyAt c = true := by rwa [State.readyAt, hsame]
  have hask : askPresence addr c w =
      exchangeCh c .searchRom (addrBytes addr) s.cfg.respLen.searchRom.toNat (w.setCi c) := by
    rw [askPresence, hcfg]
    rfl
  obtain ⟨hres, hvain⟩ := exchangeCh_inVain (s₀ := s) (s := s.accept i) (w := w.setCi c) rfl htr rfl
    (hkept.trans (Kept.setCi w c)) hsearch hsame hlog herr
  rw [← hask] at hres hvain
  rw [hskip]
  exact ⟨_, hvain, fun hpolicy => presentOver_raise hwready (by rw [hcfg, hpolicy]) hres,
    fun hpolicy => presentOver_asNotFound hwready (by rw [hcfg, hpolicy]) hres⟩

/-- Where no channel behind one that was asked in vain is ready, isPresent gives up (R198, R200). -/
theorem presentOver_gives_up {e : State} {r : XRes} (sid : Nat) (he : AskedInVain .searchRom addr c cause s u e)
    (hrest : ∀ x, c < x → s.readyAt x = false) :
    ∃ f, presentOver sid addr (channelsFrom s.cfg (c + 1))
        ((e.setCursor 0).logExchange sid .isPresent c .searchRom r) = (.okBool false, f) ∧
      f.tr = e.tr ∧ f.ready = e.ready ∧ f.log = s.log ++ [⟨sid, .isPresent, c, .searchRom, logOutcome r⟩] := by
  obtain ⟨hfalse, htr, hlog, hsame⟩ := (presentOver_spec sid addr (channelsFrom s.cfg (c + 1))
    ((e.setCursor 0).logExchange sid .isPresent c .searchRom r)).noneReady (fun x hx => by
      simp only [channelsFrom, List.mem_range'_1] at hx
      exact (he.readyAt (by omega)).trans (hrest x (by omega)))
  refine ⟨_, Prod.ext hfalse rfl, htr, hsame, ?_⟩
  rw [hlog, logExchange_log, setCursor_log, he.log]

/-- Where the next ready channel behind one that was asked in vain has the device, isPresent finds it there (R198,
R200). -/
theorem presentOver_goes_on {e : State} {d : Nat} {r : XRes} (hc : s.cfg.Wf)
    (he : AskedInVain .searchRom addr c cause s u e) (hd : c < d) (hlt : d < s.cfg.maxChannels)
    (hready : s.readyAt d = true)
    (hnext : ∀ x, c < x → x < d → s.readyAt x = false) (hone : s.cfg.respLen.searchRom = 1)
    (ha : Answers u (flagAnswer s.cfg (fun _ => s.cfg.flagByte) d)) :
    ∃ f, presentOver sid addr (channelsFrom s.cfg (c + 1))
        ((e.setCursor 0).logExchange sid .isPresent c .searchRom r) = (.okBool true, f) ∧
      f.ready = e.ready ∧ f.log = s.log ++ [⟨sid, .isPresent, c, .searchRom, logOutcome r⟩] ∧
      Sent s f [wireFrame s.cfg (byteOf c) .searchRom (addrBytes addr),
        wireFrame s.cfg (byteOf d) .searchRom (addrBytes addr)] := by
  obtain ⟨w, hskip, hkept, -, htr, hsame, hlog⟩ := presentOver_skip sid addr
    (List.range' (c + 1) (d - (c + 1))) (d :: channelsFrom s.cfg (d + 1))
    ((e.setCursor 0).logExchange sid .isPresent c .searchRom r)
    (fun x hx => by
      simp only [List.mem_range'_1] at hx
      exact (he.readyAt (by omega)).trans (hnext x (by omega) (by omega)))
  rw [← channelsFrom_split s.cfg hd hlt] at hskip
  have hcfg : w.cfg = s.cfg := hkept.cfg.trans he.kept.cfg
  have hwtr : w.tr = u.tr := htr.trans he.tr
  have hwready : w.readyAt d = true := by
    rw [State.readyAt, hsame]
    exact (he.readyAt hd).trans hready
  obtain ⟨hwrite, hflush, harrive, hstand⟩ := ha
  obtain ⟨f, hfound, htraffic, hfready, hsent⟩ := presentOver_matches (s := w) (sid := sid) (addr := addr)
    (cs := channelsFrom s.cfg (d + 1)) (by rwa [hcfg]) (by rwa [hcfg]) hwready (by rwa [hwtr]) (by rwa [hwtr])
    (by rwa [hcfg, hwtr, takeArrival_of_ne harrive])
  rw [hcfg] at hsent
  refine ⟨f.setCursor 0, hskip.trans hfound, hfready.trans hsame, ?_, ?_⟩
  · rw [setCursor_log, htraffic.log, hlog, logExchange_log, setCursor_log, he.log]
  · exact he.sent.trans (hsent.of_tr htr.symm rfl)

/-! select (R199, R200). -/

/-- Where select's exchange fails, its verdict is as the policy says. -/
theorem selectDevice_fails (i : Instr) (hready : s.readyAt s.cursor = true)
    (herr : exchangeCh s.cursor .matchRom (addrBytes addr) s.cfg.respLen.matchRom.toNat s = (.err cause info, u)) :
    ∃ e, AskedInVain .matchRom addr s.cursor cause (s.accept i) u e ∧
      (s.cfg.presencePolicy = .raise → selectDevice sid addr (s.accept i) = (raise cause info, e)) ∧
      (s.cfg.presencePolicy = .asNotFound → selectDevice sid addr (s.accept i) =
        (.okBool false, e.logExchange sid .select s.cursor .matchRom (.err cause info))) := by
  obtain ⟨hres, hvain⟩ := exchangeCh_inVain (s₀ := s) (s := s.accept i) (w := s.accept i) rfl rfl rfl (Kept.refl _)
    ⟨rfl, rfl, rfl, rfl⟩ rfl rfl herr
  have hroute : route1 .matchRom (addrBytes addr) (respLenOf s.cfg .matchRom (addrBytes addr)) (s.accept i) =
      exchangeCh s.cursor .matchRom (addrBytes addr) s.cfg.respLen.matchRom.toNat (s.accept i) := route1_ready hready
  refine ⟨_, hvain, fun hpolicy => ?_, fun hpolicy => ?_⟩
  · simp only [selectDevice, accept_cfg, hroute, hres, hpolicy]
  · simp only [selectDevice, accept_cfg, hroute, hres, hpolicy, accept_cursor]

end

/-- Settles O34: every exit of the loop is `Presented`. -/
theorem isPresentAlwaysResetsCursor : Obligations.IsPresentAlwaysResetsCursor := by
  intro s sid addr hacc
  obtain ⟨t, hrun, hended⟩ := execIsPresent_ends hacc
  have hpresented := presentOver_spec sid addr (channelsFrom s.cfg 0) (s.accept (.isPresent sid addr))
  obtain ⟨hcursor, hlast, hvalid, hsstate⟩ := hended.search
  obtain ⟨hmemory, htokens, hothers, hport, hidle⟩ := hended.kept
  refine ⟨t, hrun, hcursor.trans hpresented.cursor, hlast.trans hpresented.lastAddr,
    hvalid.trans hpresented.addrValid, hsstate.trans hpresented.sstate, hmemory, htokens, hothers, hport, hidle,
    fun hpolicy => ?_, fun hnone => ?_⟩
  · obtain ⟨b, hb⟩ | ⟨hraise, -⟩ := hpresented.verdict
    · exact resultOk_of_okBool (hb ▸ hended.result)
    · exact nomatch hraise.symm.trans hpolicy
  · obtain ⟨hfalse, htr, -⟩ := hpresented.noneReady fun x _ => hnone x
    have hresult := hended.result
    rw [hfalse] at hresult
    exact ⟨resultOk_of_okBool hresult, by rw [hresult]; rfl, hended.tr.trans htr⟩

/-- Settles O59: select has one exchange and isPresent's loop one that fails first; what follows is the policy's. -/
theorem presenceFailuresOfEveryCause : Obligations.PresenceFailuresOfEveryCause := by
  intro s u sid c addr cause info hc hready
  refine ⟨fun hacc hcursor herr => ?_, fun hacc hlt hfirst herr => ?_⟩
  · subst hcursor
    obtain ⟨e, he, hraise, hnotFound⟩ := selectDevice_fails (sid := sid) (.select sid addr) hready herr
    cases hpolicy : s.cfg.presencePolicy with
    | raise =>
      obtain ⟨t, hrun, hended⟩ := exec_ends (body := selectDevice sid addr) hacc rfl (by
        rw [hraise hpolicy]
        exact he.kept)
      rw [hraise hpolicy] at hended
      exact ⟨t, hrun, hended.tr.trans he.tr, hended.ready.trans he.ready,
        fun _ => ⟨resultErr_of_result hended.result, hended.log.trans he.log⟩, nofun,
        sameSearch_trans (s := s) he.search hended.search, hended.kept⟩
    | asNotFound =>
      obtain ⟨t, hrun, hended⟩ := exec_ends (body := selectDevice sid addr) hacc rfl (by
        rw [hnotFound hpolicy]
        exact he.kept.trans (Kept.logExchange ..))
      rw [hnotFound hpolicy] at hended
      refine ⟨t, hrun, hended.tr.trans he.tr, hended.ready.trans he.ready, nofun,
        fun _ => ⟨resultOk_of_okBool hended.result, by rw [hended.result]; rfl, ?_⟩,
        sameSearch_trans (s := s) he.search hended.search, hended.kept⟩
      rw [hended.log, logExchange_log, he.log]
      rfl
  · obtain ⟨e, he, hraise, hgoOn⟩ := presentOver_fails (sid := sid) (.isPresent sid addr) hready hlt hfirst herr
    obtain ⟨t, hrun, hended⟩ := execIsPresent_ends hacc
    have hpresented := presentOver_spec sid addr (channelsFrom s.cfg 0) (s.accept (.isPresent sid addr))
    obtain ⟨hcursor, -⟩ := hended.search
    refine ⟨t, hrun, hcursor.trans hpresented.cursor, fun hpolicy => ?_, fun hpolicy hrest => ?_,
      fun hpolicy d hd hdlt hdready hnext hone ha => ?_⟩
    · rw [hraise hpolicy] at hended
      exact ⟨resultErr_of_result hended.result, hended.log.trans he.log, hended.tr.trans he.tr,
        hended.ready.trans he.ready⟩
    · obtain ⟨f, hfalse, htr, hsame, hlog⟩ := presentOver_gives_up (s := s.accept (.isPresent sid addr))
        (r := .err cause info) sid he hrest
      rw [hgoOn hpolicy, ← accept_cfg s (.isPresent sid addr), hfalse] at hended
      exact ⟨resultOk_of_okBool hended.result, by rw [hended.result]; rfl, (hended.tr.trans htr).trans he.tr,
        (hended.ready.trans hsame).trans he.ready, hended.log.trans hlog⟩
    · obtain ⟨f, hfound, hsame, hlog, hsent⟩ := presentOver_goes_on (s := s.accept (.isPresent sid addr)) (sid := sid)
        (r := .err cause info) hc he hd hdlt hdready hnext hone ha
      rw [hgoOn hpolicy, ← accept_cfg s (.isPresent sid addr), hfound] at hended
      exact ⟨resultOk_of_okBool hended.result, by rw [hended.result]; rfl, (hsent.of_tr rfl hended.tr).frames,
        (hended.ready.trans hsame).trans he.ready, hended.log.trans hlog⟩

/-! The device that answers with the failure status (R86, R115). -/

theorem exchangeCh_refused {s : State} {c : Nat} {cmd : WireCmd} {pay : List Byte} {n : Nat}
    (ha : Answers s [byteOf c, s.cfg.stFailure, 0]) :
    (exchangeCh c cmd pay n s).1 = .err .statusFailure (infoOf s.cfg.stFailure 0) := by
  obtain ⟨hanswer, -⟩ := exchange_answered (ch := byteOf c) (cmd := cmd) (pay := pay) (n := n) (s := s) (rpay := [])
    (tail := []) (Nat.zero_le _) ha
  exact hanswer.trans (validate_failure ..)

/-- The failure status is no communication error and downgrades nothing (R121, R261). -/
theorem readyAfterFailure_statusFailure (s : State) (c : Nat) : readyAfterFailure s c .statusFailure = s.ready :=
  if_neg fun ⟨_, hkind⟩ => nomatch hkind

/-- Settles O32: `StatusFailure` is one of the causes of O59; what isPresent leaves alone on every exit is O34. -/
theorem presenceErrorsFollowThePolicy : Obligations.PresenceErrorsFollowThePolicy := by
  intro s sid addr i hc hlen hi hacc hready ha
  have hcauses (cmd : WireCmd) (n : Nat) := presenceFailuresOfEveryCause s
    (exchangeCh s.cursor cmd (addrBytes addr) n s).2 sid s.cursor addr .statusFailure (infoOf s.cfg.stFailure 0) hc
    hready
  obtain rfl | ⟨rfl, hothers⟩ := hi
  · obtain ⟨hselect, -⟩ := hcauses .matchRom s.cfg.respLen.matchRom.toNat
    obtain ⟨t, hrun, -, htready, hraise, hnotFound, -, hmemory, htokens, -⟩ :=
      hselect hacc rfl (Prod.ext (exchangeCh_refused ha) rfl)
    refine ⟨t, hrun, htready.trans (readyAfterFailure_statusFailure ..), hmemory, htokens, hraise, fun hpolicy => ?_⟩
    obtain ⟨hok, hfalse, hlog⟩ := hnotFound hpolicy
    exact ⟨hok, hfalse, _, hlog, rfl, rfl, rfl⟩
  · have hlt : s.cursor < s.cfg.maxChannels := by
      by_contra hpast
      exact nomatch hready.symm.trans (readyAt_eq_false_of_length_le (hlen.trans_le (not_lt.1 hpast)))
    obtain ⟨-, hpresent⟩ := hcauses .searchRom s.cfg.respLen.searchRom.toNat
    obtain ⟨t, hrun, -, hraise, hnotFound, -⟩ := hpresent hacc hlt (fun x hx => hothers x (Nat.ne_of_lt hx))
      (Prod.ext (exchangeCh_refused ha) rfl)
    obtain ⟨t', hrun', -, -, -, -, hmemory, htokens, -⟩ := isPresentAlwaysResetsCursor s sid addr hacc
    cases hrun.symm.trans hrun'
    have hrest (x : Nat) (hx : s.cursor < x) : s.readyAt x = false := hothers x (Nat.ne_of_gt hx)
    refine ⟨t, hrun, ?_, hmemory, htokens, fun hpolicy => ?_, fun hpolicy => ?_⟩
    · cases hpolicy : s.cfg.presencePolicy with
      | raise =>
        obtain ⟨-, -, -, htready⟩ := hraise hpolicy
        exact htready.trans (readyAfterFailure_statusFailure ..)
      | asNotFound =>
        obtain ⟨-, -, -, htready, -⟩ := hnotFound hpolicy hrest
        exact htready.trans (readyAfterFailure_statusFailure ..)
    · obtain ⟨herr, hlog, -⟩ := hraise hpolicy
      exact ⟨herr, hlog⟩
    · obtain ⟨hok, hfalse, -, -, hlog⟩ := hnotFound hpolicy hrest
      exact ⟨hok, hfalse, _, hlog, rfl, rfl, rfl⟩

/-! The loop against a device whose flags are known (R198, R147). -/

section

variable {s : State} {n c : Nat} {flag : Nat → Byte} {l : List Nat}

/-- The device answers the ready channels of `l` with `flag`, as the statement of R198 writes it. -/
theorem flagsStand_of_answersInTurn (ha : AnswersInTurn s (l.filter s.readyAt).length
    ((l.filter s.readyAt).flatMap fun x => [byteOf x, s.cfg.stSuccess, 1, flag x])) : FlagsStand s flag l [] 0 := by
  obtain ⟨hwrite, hflush, harrive, hstand⟩ := ha
  refine ⟨hwrite, hflush, ?_⟩
  rw [List.append_nil, takeArrival_of_ne harrive]
  exact hstand

/-- The answer of the last channel that is asked stands behind the others. -/
theorem flagsStand_last (hready : s.readyAt c = true) (h : FlagsStand s flag (l ++ [c]) [] 0) :
    FlagsStand s flag l (flagAnswer s.cfg flag c) 1 := by
  have hfilter : (l ++ [c]).filter s.readyAt = l.filter s.readyAt ++ [c] := by
    rw [List.filter_append, List.filter_singleton, hready, cond_true]
  obtain ⟨hwrite, hflush, hstand⟩ := h
  rw [hfilter, List.length_append] at hwrite hflush
  rw [hfilter, List.flatMap_append, List.flatMap_singleton, List.append_nil] at hstand
  exact ⟨hwrite, hflush, hstand⟩

/-- How isPresent ends that answers `b` and asks the channels `asked`, each once and in that order. -/
structure FoundAs (addr : DevAddr) (b : Bool) (asked : List Nat) (s : State) (r : Verdict × State) : Prop where
  verdict : r.1 = .okBool b
  ready : r.2.ready = s.ready
  log : r.2.log = s.log
  sent : Sent s r.2 (asked.map fun x => wireFrame s.cfg (byteOf x) .searchRom (addrBytes addr))

/-- The loop where no channel matches. -/
theorem presentOver_none (sid : Nat) (addr : DevAddr) (hc : s.cfg.Wf) (hone : s.cfg.respLen.searchRom = 1)
    (hother : ∀ x < s.cfg.maxChannels, s.readyAt x = true → flag x ≠ s.cfg.flagByte)
    (hstand : FlagsStand s flag (List.range s.cfg.maxChannels) [] 0) :
    FoundAs addr false ((List.range s.cfg.maxChannels).filter s.readyAt) s
      (presentOver sid addr (channelsFrom s.cfg 0) s) := by
  obtain ⟨u, hpass, -, -, hready, hlog, -, hsent⟩ := presentOver_pass sid addr flag [] 0 _ [] s hc hone
    (fun x hx => by
      obtain ⟨hx, hxready⟩ := List.mem_filter.1 hx
      exact hother x (List.mem_range.1 hx) hxready) hstand
  rw [List.append_nil, List.range_eq_range'] at hpass
  rw [show channelsFrom s.cfg 0 = List.range' 0 s.cfg.maxChannels from rfl, hpass]
  exact ⟨rfl, hready, hlog, hsent.of_tr rfl rfl⟩

/-- The loop where `c` is the first channel that matches. -/
theorem presentOver_first (sid : Nat) (addr : DevAddr) (hc : s.cfg.Wf) (hone : s.cfg.respLen.searchRom = 1)
    (hlt : c < s.cfg.maxChannels) (hready : s.readyAt c = true) (hmatch : flag c = s.cfg.flagByte)
    (hother : ∀ x < c, s.readyAt x = true → flag x ≠ s.cfg.flagByte)
    (hstand : FlagsStand s flag (List.range (c + 1)) [] 0) :
    FoundAs addr true ((List.range (c + 1)).filter s.readyAt) s (presentOver sid addr (channelsFrom s.cfg 0) s) := by
  rw [List.range_succ] at hstand
  obtain ⟨u, hpass, hkept, -, hsame, hlog, ⟨hwrite, hflush, hlast⟩, hsent⟩ := presentOver_pass sid addr flag
    (flagAnswer s.cfg flag c) 1 (List.range c) (c :: channelsFrom s.cfg (c + 1)) s hc hone
    (fun x hx => by
      obtain ⟨hx, hxready⟩ := List.mem_filter.1 hx
      exact hother x (List.mem_range.1 hx) hxready) (flagsStand_last hready hstand)
  have hcfg := hkept.cfg
  have huready : u.readyAt c = true := by rwa [State.readyAt, hsame]
  obtain ⟨hwriteHead, -⟩ := head_of_take (k := 0) hwrite
  obtain ⟨hflushHead, -⟩ := head_of_take (k := 0) hflush
  obtain ⟨e, hfound, htraffic, heready, hesent⟩ := presentOver_matches (s := u) (sid := sid) (addr := addr)
    (cs := channelsFrom s.cfg (c + 1)) (by rwa [hcfg]) (by rwa [hcfg]) huready hwriteHead hflushHead
    (by rw [hcfg, flagAnswer, ← hmatch]; exact hlast)
  rw [channelsFrom_split s.cfg (Nat.zero_le c) hlt, Nat.sub_zero, ← List.range_eq_range', hpass, hfound]
  refine ⟨rfl, heready.trans hsame, htraffic.log.trans hlog, ?_⟩
  rw [List.range_succ, List.filter_append, List.filter_singleton, hready, cond_true, List.map_append,
    List.map_singleton]
  rw [hcfg] at hesent
  exact (hsent.trans hesent).of_tr rfl rfl

/-- isPresent against a device that answers the ready channels below `n`, which are all or end with the one that
matches: it tells whether one of them does (R198). -/
theorem presentOver_answered (sid : Nat) (addr : DevAddr) (hc : s.cfg.Wf) (hone : s.cfg.respLen.searchRom = 1)
    (hn : n ≤ s.cfg.maxChannels) (hearlier : ∀ x, x + 1 < n → s.readyAt x = true → flag x ≠ s.cfg.flagByte)
    (hall : n = s.cfg.maxChannels ∨ ∃ c, n = c + 1 ∧ s.readyAt c = true ∧ flag c = s.cfg.flagByte)
    (hstand : FlagsStand s flag (List.range n) [] 0) :
    ∃ b, FoundAs addr b ((List.range n).filter s.readyAt) s (presentOver sid addr (channelsFrom s.cfg 0) s) ∧
      (b = true ↔ ∃ x, x < n ∧ s.readyAt x = true ∧ flag x = s.cfg.flagByte) := by
  by_cases hlast : ∃ c, n = c + 1 ∧ s.readyAt c = true ∧ flag c = s.cfg.flagByte
  · obtain ⟨c, rfl, hready, hmatch⟩ := hlast
    exact ⟨true, presentOver_first sid addr hc hone hn hready hmatch (fun x hx => hearlier x (by omega)) hstand,
      iff_of_true rfl ⟨c, Nat.lt_succ_self c, hready, hmatch⟩⟩
  · obtain rfl := hall.resolve_right hlast
    have hother (x : Nat) (hx : x < s.cfg.maxChannels) (hxready : s.readyAt x = true) : flag x ≠ s.cfg.flagByte := by
      by_cases hend : s.cfg.maxChannels = x + 1
      · exact fun hmatch => hlast ⟨x, hend, hxready, hmatch⟩
      · exact hearlier x (by omega) hxready
    exact ⟨false, presentOver_none sid addr hc hone hother hstand,
      iff_of_false Bool.false_ne_true fun ⟨x, hx, hxready, hmatch⟩ => hother x hx hxready hmatch⟩

end

/-- Settles O33: the loop tells whether one of the channels asked matches; the rest is what every exit leaves alone. -/
theorem isPresentFindsMatch : Obligations.IsPresentFindsMatch := by
  intro s sid n addr flag hc hacc hone hn hearlier hall ha
  obtain ⟨b, hfound, hb⟩ := presentOver_answered (s := s.accept (.isPresent sid addr)) sid addr hc hone hn hearlier hall
    (flagsStand_of_answersInTurn ha)
  obtain ⟨t, hrun, hended⟩ := execIsPresent_ends hacc
  obtain ⟨t', hrun', hcursor, hlast, hvalid, hsstate, hmemory, htokens, hothers, hport, hidle, -⟩ :=
    isPresentAlwaysResetsCursor s sid addr hacc
  cases hrun.symm.trans hrun'
  have hresult := hended.result
  rw [← accept_cfg s (.isPresent sid addr), hfound.verdict] at hresult
  refine ⟨t, hrun, resultOk_of_okBool hresult, ?_, (hfound.sent.of_tr rfl hended.tr).frames, hcursor, hlast, hvalid,
    hsstate, hended.ready.trans hfound.ready, hended.log.trans hfound.log, hmemory, htokens, hothers, hport, hidle⟩
  rw [hresult]
  exact hb

end Sys2Proof.Proofs.Presence

/-! The search (44_device_search.md). findFirstDevice and findNextDevice end with a scan; what a scan does from any
state is `Settled`, and where the exchanges or the device's answers are known, a part of a search that gets nothing is `Went`
and one that finds the device is `Found`. The two operations put these together. -/

namespace Sys2Proof.Proofs.DeviceSearch

open Sys2Proof Sys2Proof.Machine Sys2Proof.Proofs.BufferSpace Sys2Proof.Proofs.FailingTransfers
open Sys2Proof.Proofs.Invariants Sys2Proof.Proofs.Router Sys2Proof.Proofs.AnsweredTransfers

section

variable {s s' u v w t : State} {i : Instr} {sid c d start start' n n' : Nat} {op : HostOp} {cmd : WireCmd} {b : Bool}
variable {reply : List Byte} {sent sent' : List (List Byte)} {recs recs' : List LogRec} {flag : Nat → Byte}
variable {body : State → Verdict × State}

/-! The end of a search (R93). -/

theorem ended_okBool (h : Ended sid (.okBool b, u) s t) :
    ResultOk t sid ∧ (t.session sid).result.rbool = b := by
  refine ⟨resultOk_of_okBool h.result, ?_⟩
  rw [h.result]
  rfl

theorem ended_readyAt {r : Verdict × State} (h : Ended sid r s t) (x : Nat) : t.readyAt x = r.2.readyAt x := by
  rw [State.readyAt, h.ready]
  rfl

theorem ended_framesSent {r : Verdict × State} (h : Ended sid r s t) (hsent : Sent (s.accept i) r.2 sent) :
    framesSent s t = sent := (hsent.of_tr rfl h.tr).frames

/-! Any search (R222, R224). -/

/-- A search run from `s` that answers `b` and leaves `u`: it ends `Found` on a ready channel from `start` on with a
valid address, or `Exhausted` with the recorded address as it was, and has sent at most `n` frames (R222). -/
structure Settled (s u : State) (b : Bool) (start n : Nat) : Prop where
  kept : Kept s u
  down : ∀ x, u.readyAt x = true → s.readyAt x = true
  sent : ∃ frames, Sent s u frames ∧ frames.length ≤ n
  found : b = true → u.sstate = .found ∧ u.addrValid = true ∧ u.readyAt u.cursor = true ∧ start ≤ u.cursor ∧
    u.cursor < s.cfg.maxChannels
  exhausted : b = false → u.sstate = .exhausted ∧ u.cursor = 0 ∧ u.addrValid = s.addrValid ∧ u.lastAddr = s.lastAddr

theorem Settled.cursor_lt (h : Settled s u b start n) (hpos : 0 < s.cfg.maxChannels) :
    u.cursor < s.cfg.maxChannels := by
  cases b with
  | true =>
    obtain ⟨-, -, -, -, hlt⟩ := h.found rfl
    exact hlt
  | false =>
    obtain ⟨-, hzero, -⟩ := h.exhausted rfl
    exact hzero ▸ hpos

/-- What comes before the search may send frames and clear ready flags, and leaves the recorded address alone. -/
theorem Settled.after (h : Settled v u b start n) (hkept : Kept s v)
    (hdown : ∀ x, v.readyAt x = true → s.readyAt x = true) (hvalid : v.addrValid = s.addrValid)
    (hlast : v.lastAddr = s.lastAddr) (hsent : Sent s v sent) (hstart : start' ≤ start)
    (hn : sent.length + n ≤ n') : Settled s u b start' n' where
  kept := hkept.trans h.kept
  down x hx := hdown x (h.down x hx)
  sent := by
    obtain ⟨frames, hframes, hle⟩ := h.sent
    refine ⟨_, hsent.trans hframes, ?_⟩
    rw [List.length_append]
    omega
  found hb := by
    obtain ⟨hsstate, haddr, hready, hge, hlt⟩ := h.found hb
    exact ⟨hsstate, haddr, hready, hstart.trans hge, hkept.cfg ▸ hlt⟩
  exhausted hb := by
    obtain ⟨hsstate, hcursor, haddr, hkeptAddr⟩ := h.exhausted hb
    exact ⟨hsstate, hcursor, haddr.trans hvalid, hkeptAddr.trans hlast⟩

theorem scanFrom_settled (sid : Nat) (op : HostOp) (start : Nat) (s : State) :
    Settled s (scanFrom sid op start s).2 (scanFrom sid op start s).1 start (2 * (s.cfg.maxChannels - start)) := by
  obtain ⟨hkept, hdown, ⟨frames, hsent, hle, -⟩, hfound, hexhausted⟩ :=
    scanOver_spec sid op (channelsFrom s.cfg start) s
  refine ⟨hkept, hdown, ⟨frames, hsent, ?_⟩, fun hb => ?_, hexhausted⟩
  · rwa [channelsFrom, List.length_range'] at hle
  · obtain ⟨hsstate, hvalid, hcursor, hready⟩ := hfound hb
    obtain ⟨hge, hlt⟩ := mem_channelsFrom.1 hcursor
    exact ⟨hsstate, hvalid, hready, hge, hlt⟩

theorem findOn_settled (hready : s.readyAt s.cursor = true) (hcursor : s.cursor < s.cfg.maxChannels)
    (hhit : (findOn sid op s.cursor cmd s).1 = true) :
    Settled s ((findOn sid op s.cursor cmd s).2.setSState .found) true s.cursor 2 := by
  obtain ⟨hkept, hcur, -, hdown, ⟨k, hk, hsent⟩, hfound, -⟩ := findOn_spec sid op s.cursor cmd s
  obtain ⟨hvalid, hsame⟩ := hfound hhit
  refine ⟨hkept.trans (.setSState _ _), hdown, ⟨_, hsent.of_tr rfl rfl, ?_⟩, fun _ => ?_, Bool.noConfusion⟩
  · rw [List.length_cons, List.length_replicate]
    omega
  · refine ⟨rfl, hvalid, ?_, hcur.ge, hcur.trans_lt hcursor⟩
    rwa [setSState_readyAt, setSState_cursor, hcur, State.readyAt, hsame]

/-- findNextDevice is settled by FIND_NEXT on the cursor's channel, or by the scan of the channels after it (R224). -/
theorem findNext_settled (sid : Nat) (hcursor : s.cursor < s.cfg.maxChannels) :
    ∃ b u, findNext sid s = (.okBool b, u) ∧ Settled s u b s.cursor (2 + 2 * (s.cfg.maxChannels - 1 - s.cursor)) := by
  have henter : Kept s (s.setSState .searching) := .setSState _ _
  unfold findNext findNextFallback
  dsimp only
  split
  · rename_i hready
    obtain ⟨hkept, -, -, hdown, ⟨k, hk, hsent⟩, -, hmiss⟩ :=
      findOn_spec sid .findNextDevice s.cursor .findNext (s.setSState .searching)
    split
    · rename_i hhit
      exact ⟨true, _, rfl, (findOn_settled (s := s.setSState .searching) hready hcursor hhit).after (sent := []) henter
        (fun _ hx => hx) rfl rfl (.none rfl) le_rfl (by rw [List.length_nil]; omega)⟩
    · rename_i hnone
      obtain ⟨hvalid, hlast⟩ := hmiss (Bool.not_eq_true _ ▸ hnone)
      refine ⟨_, _, rfl, (scanFrom_settled sid .findNextDevice (s.cursor + 1) _).after (henter.trans hkept) hdown hvalid
        hlast (hsent.of_tr rfl rfl) (Nat.le_succ _) ?_⟩
      rw [hkept.cfg, setSState_cfg, List.length_cons, List.length_replicate]
      omega
  · refine ⟨_, _, rfl, (scanFrom_settled sid .findNextDevice (s.cursor + 1) _).after (sent := []) henter
      (fun _ hx => hx) rfl rfl (.none rfl) (Nat.le_succ _) ?_⟩
    rw [setSState_cfg, List.length_nil]
    omega

/-! Parts of a search whose frames and records are known (R172, R228). -/

/-- `u` is `s` after a part of a search that has sent `sent` and logged `recs`. -/
structure Went (s u : State) (sent : List (List Byte)) (recs : List LogRec) : Prop where
  kept : Kept s u
  sent : Sent s u sent
  log : u.log = s.log ++ recs

theorem Went.trans (h : Went s u sent recs) (k : Went u v sent' recs') : Went s v (sent ++ sent') (recs ++ recs') :=
  ⟨h.kept.trans k.kept, h.sent.trans k.sent, by rw [k.log, h.log, List.append_assoc]⟩

/-- A search run from `s` has found the device that `reply` names on channel `c`, and leaves `u` (R222, R23). -/
structure Found (s u : State) (c : Nat) (reply : List Byte) (sent : List (List Byte)) (recs : List LogRec) : Prop
    extends Went s u sent recs where
  sstate : u.sstate = .found
  addrValid : u.addrValid = true
  cursor : u.cursor = c
  lastAddr : reply.take 8 <+: addrBytes u.lastAddr

theorem Found.after (h : Found u v c reply sent' recs') (hwent : Went s u sent recs) :
    Found s v c reply (sent ++ sent') (recs ++ recs') :=
  { hwent.trans h.toWent with
    sstate := h.sstate, addrValid := h.addrValid, cursor := h.cursor, lastAddr := h.lastAddr }

/-- The frames with which channel `c` is asked and its address is fetched (R228). -/
abbrev findFrames (g : Config) (c : Nat) (cmd : WireCmd) : List (List Byte) :=
  [[g.marker, byteOf c, g.opc.get cmd, 0], [g.marker, byteOf c, g.opc.getAddress, 0]]

/-- `FindOn` against a device that gives the flag byte and an address, in the environment that `FlagsStand` describes
when no further channel is asked first (R228, R23). -/
theorem findOn_answered (sid : Nat) (op : HostOp) (c : Nat) (hcursor : s.cursor = c) (hc : s.cfg.Wf)
    (hone : respLenOf s.cfg cmd [] = 1) (hreply : reply.length = s.cfg.respLen.getAddress.toNat)
    (hstand : FlagsStand s flag [] (encodeResponse (byteOf c) s.cfg.stSuccess [s.cfg.flagByte] ++
      encodeResponse (byteOf c) s.cfg.stSuccess reply) 2) :
    ∃ v, findOn sid op c cmd s = (true, v) ∧
      Found s (v.setSState .found) c reply (findFrames s.cfg c cmd) [] ∧ v.ready = s.ready := by
  obtain ⟨hwrite, hflush, hbytes⟩ := hstand
  obtain ⟨hhit, hlast, hlog, hsent⟩ := findOn_hit sid op c cmd reply s hc hone hreply hwrite hflush hbytes
  obtain ⟨hkept, hcur, -, -, -, hfound, -⟩ := findOn_spec sid op c cmd s
  obtain ⟨hvalid, hready⟩ := hfound hhit
  refine ⟨_, Prod.ext hhit rfl, ⟨⟨hkept.trans (.setSState _ _), hsent.of_tr rfl rfl, ?_⟩, rfl, hvalid,
    hcur.trans hcursor, ?_⟩, hready⟩
  · rw [List.append_nil]
    exact hlog
  · rw [setSState_lastAddr, hlast]
    exact fetchedAddr_prefix ..

/-- Channels that are not ready take no answer (R161). -/
theorem flagsStand_of_unready {l : List Nat} {tail : List Byte} {k : Nat} (hnone : l.filter s.readyAt = [])
    (h : FlagsStand s flag [] tail k) : FlagsStand s flag l tail k := by
  obtain ⟨hwrite, hflush, hbytes⟩ := h
  exact ⟨by rw [hnone]; exact hwrite, by rw [hnone]; exact hflush, by rw [hnone]; exact hbytes⟩

/-- The probe of an operation accepted in `s` against a device that answers every ping: the ready table is what the
device said, and what stands behind the answers is still to be read (R164). -/
theorem probe_answered {up : Nat → Bool} {pong tail : List Byte} {k : Nat} (sid : Nat) (op : HostOp) (i : Instr)
    (hc : s.cfg.Wf) (hlen : s.ready.length = s.cfg.maxChannels) (hpong : pong.length = s.cfg.respLen.pingChannel.toNat)
    (ha : AnswersInTurn s (s.cfg.maxChannels + k)
      ((List.range s.cfg.maxChannels).flatMap (pingAnswer s.cfg up pong) ++ tail)) :
    (∀ x, x < s.cfg.maxChannels → (probe sid op (s.accept i)).2.readyAt x = up x) ∧
      FlagsStand (probe sid op (s.accept i)).2 flag [] tail k := by
  obtain ⟨hwrite, hflush, harrive, hbytes⟩ := ha
  rw [← takeArrival_of_ne harrive, List.range_eq_range'] at hbytes
  have hexist (x : Nat) : x ∈ List.range' 0 s.cfg.maxChannels ↔ x < s.cfg.maxChannels := by
    rw [← List.range_eq_range', List.mem_range]
  obtain ⟨htable, hwrite', hflush', hstand⟩ := probeOver_standing sid op up pong tail k
    (List.range' 0 s.cfg.maxChannels) false (invalidateSearch (s.accept i)) hc List.nodup_range'
    (fun x hx => ((hexist x).1 hx).trans_eq hlen.symm) hpong (by rw [List.length_range']; exact hwrite)
    (by rw [List.length_range']; exact hflush) hbytes
  refine ⟨fun x hx => htable x ((hexist x).2 hx), ⟨?_, ?_, hstand⟩⟩
  · rw [List.filter_nil, List.length_nil, Nat.zero_add]
    exact hwrite'
  · rw [List.filter_nil, List.length_nil, Nat.zero_add]
    exact hflush'

/-! Scans (R222). -/

theorem scanFrom_split (sid : Nat) (op : HostOp) (hstart : start ≤ d) (hd : d < s.cfg.maxChannels) :
    scanFrom sid op start s =
      scanOver sid op (List.range' start (d - start) ++ d :: channelsFrom s.cfg (d + 1)) s := by
  rw [scanFrom, channelsFrom_split s.cfg hstart hd]

/-- A scan told by what the exchanges give, on the channel that gives the flag byte and an address (R228, R23). -/
theorem scanFrom_found (hc : s'.cfg = s.cfg) (ht : s'.tr = s.tr) (hr : s'.ready = s.ready) (hstart : start ≤ d)
    (hd : d < s'.cfg.maxChannels) (hmissed : ScanMissed sid op s (List.range' start (d - start)) u sent recs)
    (hready : u.readyAt d = true) (hhit : FindHit u v d .findFirst reply) :
    ∃ w, scanFrom sid op start s' = (true, w) ∧
      Found s' w d reply (sent ++ findFrames s'.cfg d .findFirst) recs ∧ w.ready = u.ready ∧ w.tr = v.tr := by
  obtain ⟨m, hgoOn, hkept, hcfg, htr, hsame, hlog, hsent⟩ :=
    scanOver_missed hmissed (d :: channelsFrom s'.cfg (d + 1)) s' hc ht hr
  have hmcfg : m.cfg = u.cfg := hkept.cfg.trans (hc.trans hcfg.symm)
  obtain ⟨w, hscan, hwtr, hwready, hwlog, hcursor, hlast, hwsent⟩ := scanOver_hit (sid := sid) (op := op)
    (channelsFrom s'.cfg (d + 1)) m hmcfg htr hsame hready hhit
  obtain ⟨hwkept, -, -, hfound, -⟩ := scanOver_spec sid op (d :: channelsFrom s'.cfg (d + 1)) m
  rw [hscan] at hwkept hfound
  obtain ⟨hsstate, hvalid, -⟩ := hfound rfl
  have hat : Found m w d reply (findFrames s'.cfg d .findFirst) [] := by
    rw [hc, ← hcfg]
    exact ⟨⟨hwkept, hwsent, hwlog.trans (List.append_nil _).symm⟩, hsstate, hvalid, hcursor, hlast⟩
  refine ⟨w, (scanFrom_split sid op hstart hd).trans (hgoOn.trans hscan), ?_, hwready, hwtr⟩
  rw [← List.append_nil recs]
  exact hat.after ⟨hkept, hsent, hlog⟩

/-- A scan told by what the exchanges give, with no device on any channel (R222). -/
theorem scanFrom_exhausted (hc : s'.cfg = s.cfg) (ht : s'.tr = s.tr) (hr : s'.ready = s.ready)
    (hmissed : ScanMissed sid op s (channelsFrom s'.cfg start) u sent recs) :
    ∃ w, scanFrom sid op start s' = (false, w) ∧ Went s' w sent recs ∧ w.ready = u.ready ∧ w.tr = u.tr := by
  obtain ⟨m, hgoOn, hkept, -, htr, hsame, hlog, hsent⟩ := scanOver_missed hmissed [] s' hc ht hr
  rw [List.append_nil] at hgoOn
  exact ⟨_, hgoOn, ⟨hkept.trans ((Kept.setSState m _).trans (.setCursor _ _)), hsent.of_tr rfl rfl, hlog⟩, hsame, htr⟩

/-- A scan against a device that answers the ready channels before `d` with another flag, and gives the flag byte and an
address on `d` (R222, R228, R23). -/
theorem scanFrom_answered (sid : Nat) (op : HostOp) (hc : s.cfg.Wf) (hone : s.cfg.respLen.findFirst = 1)
    (hreply : reply.length = s.cfg.respLen.getAddress.toNat) (hstart : start ≤ d) (hd : d < s.cfg.maxChannels)
    (hready : s.readyAt d = true)
    (hother : ∀ x ∈ (List.range' start (d - start)).filter s.readyAt, flag x ≠ s.cfg.flagByte)
    (hstand : FlagsStand s flag (List.range' start (d - start))
      (encodeResponse (byteOf d) s.cfg.stSuccess [s.cfg.flagByte] ++
        encodeResponse (byteOf d) s.cfg.stSuccess reply) 2) :
    ∃ w, scanFrom sid op start s = (true, w) ∧
      Found s w d reply
        (((List.range' start (d - start)).filter s.readyAt).map
          (fun x => [s.cfg.marker, byteOf x, s.cfg.opc.findFirst, 0]) ++ findFrames s.cfg d .findFirst) [] ∧
      w.ready = s.ready := by
  obtain ⟨m, hpass, hkept, hsame, hlog, -, -, hlast, hsent⟩ := scanOver_pass sid op flag _ 2 _
    (d :: channelsFrom s.cfg (d + 1)) s hc hone hother hstand
  have hcfg := hkept.cfg
  rw [← hcfg] at hc hone hreply hlast
  have hmready : m.readyAt d = true := by rwa [State.readyAt, hsame]
  have henter : Went m (((m.setSState .searching).setCursor d).setCi d) [] [] :=
    ⟨((Kept.setSState m _).trans (.setCursor _ _)).trans (.setCi _ _), .none rfl, (List.append_nil _).symm⟩
  obtain ⟨v, hfind, hfound, hvready⟩ := findOn_answered (s := ((m.setSState .searching).setCursor d).setCi d)
    (cmd := .findFirst) sid op d rfl hc (by rw [setCi_cfg, setCursor_cfg, setSState_cfg, respLenOf, hone]; rfl) hreply
    (hlast.congr rfl rfl rfl)
  have hscan : scanOver sid op (d :: channelsFrom s.cfg (d + 1)) m = (true, v.setSState .found) := by
    simp only [scanOver, setCi_readyAt, setCursor_readyAt, setSState_readyAt, hmready, hfind, ite_true]
  refine ⟨_, (scanFrom_split sid op hstart hd).trans (hpass.trans hscan), ?_, hvready.trans hsame⟩
  have hat := (hfound.after henter).after ⟨hkept, hsent, hlog.trans (List.append_nil _).symm⟩
  rw [setCi_cfg, setCursor_cfg, setSState_cfg, hcfg] at hat
  exact hat

/-! The two operations (R223, R224). -/

/-- `t` is the end of an operation accepted in `s` whose search has found the device and left `w`. -/
structure EndedFound (sid c : Nat) (reply : List Byte) (sent : List (List Byte)) (recs : List LogRec) (s w t : State) :
    Prop extends Ended sid (.okBool true, w) s t where
  ok : ResultOk t sid
  rbool : (t.session sid).result.rbool = true
  sstate : t.sstate = .found
  addrValid : t.addrValid = true
  cursor : t.cursor = c
  lastAddr : reply.take 8 <+: addrBytes t.lastAddr
  frames : framesSent s t = sent
  records : t.log = s.log ++ recs

theorem exec_found (hacc : Accepted s i sid) (hexec : exec i s = runRouted i sid body s)
    (hbody : body (s.accept i) = (.okBool true, w)) (h : Found (s.accept i) w c reply sent recs) :
    ∃ t, exec i s = .next t ∧ EndedFound sid c reply sent recs s w t := by
  obtain ⟨t, hrun, hended⟩ := exec_ends hacc hexec (by rw [hbody]; exact h.kept)
  rw [hbody] at hended
  obtain ⟨hok, hbool⟩ := ended_okBool hended
  obtain ⟨hcursor, hlast, hvalid, hsstate⟩ := hended.search
  exact ⟨t, hrun, { hended with
    ok := hok, rbool := hbool, sstate := hsstate.trans h.sstate, addrValid := hvalid.trans h.addrValid,
    cursor := hcursor.trans h.cursor, lastAddr := hlast ▸ h.lastAddr, frames := ended_framesSent hended h.sent,
    records := hended.log.trans h.log }⟩

theorem exec_exhausted (hacc : Accepted s i sid) (hexec : exec i s = runRouted i sid body s)
    (hbody : body (s.accept i) = (.okBool false, w)) (h : Went (s.accept i) w sent recs) :
    ∃ t, exec i s = .next t ∧ ResultOk t sid ∧ (t.session sid).result.rbool = false ∧ framesSent s t = sent ∧
      t.log = s.log ++ recs ∧ t.ready = w.ready ∧ t.tr = w.tr := by
  obtain ⟨t, hrun, hended⟩ := exec_ends hacc hexec (by rw [hbody]; exact h.kept)
  rw [hbody] at hended
  obtain ⟨hok, hbool⟩ := ended_okBool hended
  exact ⟨t, hrun, hok, hbool, ended_framesSent hended h.sent, hended.log.trans h.log, hended.ready, hended.tr⟩

/-- An operation that prepares `v` and then ends as a search run from there. -/
theorem exec_settled (hacc : Accepted s i sid) (hexec : exec i s = runRouted i sid body s)
    (hbody : body (s.accept i) = (.okBool b, u)) (hkept : Kept (s.accept i) v) (h : Settled v u b start n)
    (hpos : 0 < s.cfg.maxChannels) :
    ∃ t, exec i s = .next t ∧ Ended sid (.okBool b, u) s t ∧ ResultOk t sid ∧ t.cursor < s.cfg.maxChannels ∧
      ((t.session sid).result.rbool = true →
        t.sstate = .found ∧ t.addrValid = true ∧ start ≤ t.cursor ∧ t.readyAt t.cursor = true) ∧
      ((t.session sid).result.rbool = false →
        t.sstate = .exhausted ∧ t.cursor = 0 ∧ t.addrValid = v.addrValid ∧ t.lastAddr = v.lastAddr) ∧
      ∀ x, t.readyAt x = true → v.readyAt x = true := by
  obtain ⟨t, hrun, hended⟩ := exec_ends hacc hexec (by rw [hbody]; exact hkept.trans h.kept)
  rw [hbody] at hended
  obtain ⟨hok, hbool⟩ := ended_okBool hended
  obtain ⟨hcursor, hlast, hvalid, hsstate⟩ := hended.search
  have hcfg : v.cfg = s.cfg := hkept.cfg
  have hready := ended_readyAt hended
  refine ⟨t, hrun, hended, hok, ?_, fun htrue => ?_, fun hfalse => ?_, fun x hx => h.down x (hready x ▸ hx)⟩
  · rw [hcursor, ← hcfg]
    exact h.cursor_lt (hcfg ▸ hpos)
  · obtain ⟨hfound, haddr, hat, hge, -⟩ := h.found (hbool.symm.trans htrue)
    refine ⟨hsstate.trans hfound, hvalid.trans haddr, hge.trans_eq hcursor.symm, ?_⟩
    rw [hready, hcursor]
    exact hat
  · obtain ⟨hexhausted, hzero, haddr, hsame⟩ := h.exhausted (hbool.symm.trans hfalse)
    exact ⟨hsstate.trans hexhausted, hcursor.trans hzero, hvalid.trans haddr, hlast.trans hsame⟩

/-- The frames of a probe (R164). -/
abbrev pingFrames (g : Config) : List (List Byte) :=
  (List.range g.maxChannels).map fun c => [g.marker, byteOf c, g.opc.pingChannel, 0]

theorem findFirst_of_scan {r : Bool × State}
    (h : scanFrom sid .findFirstDevice 0 (probe sid .findFirstDevice s).2 = r) :
    findFirst sid s = (.okBool r.1, r.2) := by
  rw [← h]
  rfl

theorem findNextFallback_of_scan {r : Bool × State} (h : scanFrom sid .findNextDevice (c + 1) s = r) :
    findNextFallback sid c s = (.okBool r.1, r.2) := by
  rw [← h]
  rfl

theorem probed_went {r : Bool × State} (h : Probed sid op i s r recs) :
    Went (s.accept i) r.2 (pingFrames s.cfg) recs ∧ recs.length = s.cfg.maxChannels := by
  have hkeys := congrArg List.length h.keys
  rw [List.length_map, List.length_map, List.length_range] at hkeys
  exact ⟨⟨h.kept, h.sent, h.log⟩, hkeys⟩

theorem findNext_hit (hready : s.readyAt s.cursor = true)
    (hfind : findOn sid .findNextDevice s.cursor .findNext (s.setSState .searching) = (true, v)) :
    findNext sid s = (.okBool true, v.setSState .found) := by
  simp only [findNext, setSState_readyAt, hready, hfind, ite_true]

/-- Where findNextDevice gets nothing from the cursor's channel, what its fallback starts from (R224). -/
theorem findNext_went (i : Instr) (h : FindNextMissed s u sid sent recs) :
    ∃ v, findNext sid (s.accept i) = findNextFallback sid s.cursor v ∧ Went (s.accept i) v sent recs ∧
      u.cfg = s.cfg ∧ v.tr = u.tr ∧ v.ready = u.ready ∧ ∀ x, x ≠ s.cursor → v.readyAt x = s.readyAt x := by
  obtain ⟨v, hfallback, hkept, hcfg, htr, hready, hlog, hsent, hother⟩ := findNext_missed i h
  exact ⟨v, hfallback, ⟨hkept, hsent, hlog⟩, hcfg, htr, hready, hother⟩

end

theorem lastAddrBytes_length (s : State) : (lastAddrBytes s).length = 8 := by
  rw [lastAddrBytes]
  split
  · rfl
  · rw [List.length_map, List.length_range]

/-! The obligations. -/

/-- Settles O39: what the probe leaves is where the scan starts, so that the three parts are `Settled`, `scanFrom_found`
and `scanFrom_exhausted` from there. -/
theorem findFirstDeviceOutcome : Obligations.FindFirstDeviceOutcome := by
  refine ⟨fun s sid hpos hlen hacc => ?_, fun s u v sid d reply sent recs hlen hacc hd hmissed hready hhit => ?_,
    fun s u sid sent recs hlen hacc hmissed => ?_⟩
  all_goals obtain ⟨pings, hprobed⟩ := probe_probed sid .findFirstDevice (.findFirstDevice sid) hlen
  all_goals obtain ⟨hwent, hcount⟩ := probed_went hprobed
  · obtain ⟨-, hinvalid, -, hlast⟩ := hprobed.invalidated
    have hsettled := scanFrom_settled sid .findFirstDevice 0
      (probe sid .findFirstDevice (s.accept (.findFirstDevice sid))).2
    obtain ⟨t, hrun, hended, hok, hcursor, hfound, hexhausted, -⟩ :=
      exec_settled hacc rfl (findFirst_of_scan rfl) hprobed.kept hsettled hpos
    obtain ⟨frames, hsent, hle⟩ := hsettled.sent
    rw [hprobed.kept.cfg, Nat.sub_zero] at hle
    have hpings : (pingFrames s.cfg).length = s.cfg.maxChannels := by rw [List.length_map, List.length_range]
    have hframes := ended_framesSent hended (hwent.sent.trans hsent)
    refine ⟨t, hrun, hok, hcursor, fun htrue => ?_, fun hfalse => ?_, ?_, ?_, hended.kept⟩
    · obtain ⟨hsstate, hvalid, -, hat⟩ := hfound htrue
      exact ⟨hsstate, hvalid, hat⟩
    · obtain ⟨hsstate, hzero, hvalid, hsame⟩ := hexhausted hfalse
      exact ⟨hsstate, hzero, hvalid.trans hinvalid, hsame.trans hlast⟩
    · rw [hframes, List.take_left' hpings]
    · rw [hframes, List.length_append, hpings]
      exact (Nat.add_le_add_left hle _).trans_eq (by rw [accept_cfg]; omega)
  · obtain ⟨hcfg, htr, hsame⟩ := probe_afterProbe sid .findFirstDevice s (s.accept (.findFirstDevice sid)) rfl rfl hlen
    obtain ⟨w, hscan, hfound, hwready, hwtr⟩ := scanFrom_found hcfg htr hsame (Nat.zero_le d)
      (by rw [hprobed.kept.cfg]; exact hd) (by rw [Nat.sub_zero, ← List.range_eq_range']; exact hmissed) hready hhit
    obtain ⟨t, hrun, h⟩ := exec_found hacc rfl (findFirst_of_scan hscan) (hfound.after hwent)
    refine ⟨t, pings, hrun, h.ok, h.rbool, h.sstate, h.addrValid, h.cursor, h.lastAddr, ?_, ?_, hcount,
      h.ready.trans hwready, h.tr.trans hwtr⟩
    · rw [h.frames, List.append_assoc, hprobed.kept.cfg]
      rfl
    · rw [h.records, List.append_assoc]
  · obtain ⟨hcfg, htr, hsame⟩ := probe_afterProbe sid .findFirstDevice s (s.accept (.findFirstDevice sid)) rfl rfl hlen
    obtain ⟨w, hscan, hscanned, hwready, hwtr⟩ := scanFrom_exhausted (start := 0) hcfg htr hsame
      (by rw [channelsFrom, hprobed.kept.cfg, Nat.sub_zero, ← List.range_eq_range']; exact hmissed)
    obtain ⟨t, hrun, hok, hbool, hframes, hlog, hready, ht⟩ :=
      exec_exhausted hacc rfl (findFirst_of_scan hscan) (hwent.trans hscanned)
    exact ⟨t, pings, hrun, hok, hbool, hframes, by rw [hlog, List.append_assoc], hcount, hready.trans hwready,
      ht.trans hwtr⟩

/-- Settles O58: the pings leave ready what `up` says and the two answers of `c` still to be read, and the scan passes
by the channels before `c`. -/
theorem findFirstDeviceRecordsTheFind : Obligations.FindFirstDeviceRecordsTheFind := by
  intro s sid c up pong reply hc hlen hacc hlt hup hdown hpong hone hreply ha
  obtain ⟨recs, hprobed⟩ := probe_probed sid .findFirstDevice (.findFirstDevice sid) hlen
  obtain ⟨hwent, -⟩ := probed_went hprobed
  obtain ⟨htable, hstand⟩ := probe_answered (flag := fun _ => 0) sid .findFirstDevice (.findFirstDevice sid) hc hlen
    hpong ha
  have hcfg := hprobed.kept.cfg
  rw [accept_cfg] at hcfg
  have hnone : (List.range' 0 (c - 0)).filter (probe sid .findFirstDevice (s.accept (.findFirstDevice sid))).2.readyAt =
      [] := by
    refine List.filter_eq_nil_iff.2 fun x hx => ?_
    obtain ⟨-, hxc⟩ := List.mem_range'_1.1 hx
    rw [htable x (by omega), hdown x (by omega)]
    exact Bool.false_ne_true
  obtain ⟨w, hscan, hfound, hwready⟩ := scanFrom_answered (reply := reply) (start := 0) (d := c) sid .findFirstDevice
    (by rwa [hcfg]) (by rwa [hcfg]) (by rwa [hcfg]) (Nat.zero_le c) (by rwa [hcfg]) ((htable c hlt).trans hup)
    (by rw [hnone]; exact fun _ hx => nomatch hx) (flagsStand_of_unready hnone (by rw [hcfg]; exact hstand))
  obtain ⟨t, hrun, h⟩ := exec_found hacc rfl (findFirst_of_scan hscan) (hfound.after hwent)
  refine ⟨t, hrun, h.ok, h.rbool, h.sstate, h.addrValid, h.cursor, h.lastAddr, fun x => ?_, ?_, h.kept⟩
  · rw [State.readyAt, h.ready, hwready, ← State.readyAt]
    by_cases hx : x < s.cfg.maxChannels
    · rw [htable x hx, and_iff_right hx]
    · refine iff_of_false (fun hready => hx ?_) fun ⟨hx', _⟩ => hx hx'
      obtain ⟨hx', -⟩ := (hprobed.answered x).1 hready
      exact hx'
  · rw [h.frames, hnone, hcfg]
    rfl

/-- Settles O40: FIND_NEXT goes to the cursor's channel, and `findOn_answered` tells the rest. -/
theorem findNextDeviceStaysOnChannel : Obligations.FindNextDeviceStaysOnChannel := by
  intro s sid reply hc hacc hready hone hreply ⟨hwrite, hflush, harrive, hbytes⟩
  rw [← takeArrival_of_ne harrive] at hbytes
  obtain ⟨v, hfind, hfound, hsame⟩ := findOn_answered (s := (s.accept (.findNextDevice sid)).setSState .searching)
    (cmd := .findNext) (reply := reply) (flag := fun _ => 0) sid .findNextDevice s.cursor rfl hc
    (by rw [respLenOf, setSState_cfg, accept_cfg, hone]; rfl) hreply ⟨hwrite, hflush, hbytes⟩
  have henter : Went (s.accept (.findNextDevice sid)) ((s.accept (.findNextDevice sid)).setSState .searching) [] [] :=
    ⟨.setSState _ _, .none rfl, (List.append_nil _).symm⟩
  obtain ⟨t, hrun, h⟩ := exec_found hacc rfl (findNext_hit (s := s.accept (.findNextDevice sid)) hready hfind)
    (hfound.after henter)
  exact ⟨t, hrun, h.ok, h.rbool, h.sstate, h.addrValid, h.lastAddr, h.cursor, h.ready.trans hsame,
    h.records.trans (List.append_nil _), h.frames, h.kept⟩

/-- Settles O41: the four parts are `findNext_settled`, and `scanFrom_answered`, `scanFrom_found` and
`scanFrom_exhausted` from where the cursor's channel gave nothing. -/
theorem findNextDeviceOutcome : Obligations.FindNextDeviceOutcome := by
  refine ⟨fun s sid hcursor hacc => ?_, ?_, ?_, ?_⟩
  · obtain ⟨b, u, hbody, hsettled⟩ := findNext_settled (s := s.accept (.findNextDevice sid)) sid hcursor
    obtain ⟨t, hrun, hended, hok, hlt, hfound, hexhausted, hdown⟩ :=
      exec_settled hacc rfl hbody (.refl _) hsettled (Nat.zero_lt_of_lt hcursor)
    obtain ⟨frames, hsent, hle⟩ := hsettled.sent
    exact ⟨t, hrun, hok, hlt, hfound, hexhausted, hdown, (ended_framesSent hended hsent).symm ▸ hle, hended.kept⟩
  · intro s u sid d flag reply sent recs between hc hacc hmissed hone hreply hlt hd hready hbetween hother
      ⟨hwrite, hflush, harrive, hbytes⟩
    obtain ⟨v, hfallback, hwent, hcfg, htr, hsame, hothers⟩ := findNext_went (.findNextDevice sid) hmissed
    have hfilter : (List.range' (s.cursor + 1) (d - (s.cursor + 1))).filter v.readyAt = between := by
      rw [hbetween]
      exact List.filter_congr fun x hx => hothers x (Nat.ne_of_gt (List.mem_range'_1.1 hx).1)
    have hvcfg : v.cfg = s.cfg := hwent.kept.cfg
    obtain ⟨w, hscan, hfound, hwready⟩ := scanFrom_answered (s := v) (reply := reply) (flag := flag)
      (start := s.cursor + 1) (d := d) sid .findNextDevice (by rwa [hvcfg]) (by rwa [hvcfg]) (by rwa [hvcfg]) hlt
      (by rwa [hvcfg]) ((hothers d (Nat.ne_of_gt hlt)).trans hready) (by rwa [hfilter, hvcfg])
      ⟨by rwa [hfilter, htr], by rwa [hfilter, htr], by
        rw [hfilter, htr, hvcfg, takeArrival_of_ne harrive]
        exact hbytes⟩
    obtain ⟨t, hrun, h⟩ := exec_found hacc rfl (hfallback.trans (findNextFallback_of_scan hscan)) (hfound.after hwent)
    refine ⟨t, hrun, h.ok, h.rbool, h.sstate, h.addrValid, h.cursor, h.lastAddr, ?_, ?_,
      h.ready.trans (hwready.trans hsame), h.kept⟩
    · rw [h.frames, hfilter, hvcfg, List.append_assoc]
      rfl
    · rw [h.records, List.append_nil]
  · intro s u v w sid d reply sent sent' recs recs' hacc hmissed hlt hd hscanMissed hready hhit
    obtain ⟨m, hfallback, hwent, hcfg, htr, hsame, -⟩ := findNext_went (.findNextDevice sid) hmissed
    obtain ⟨x, hscan, hfound, hxready, hxtr⟩ := scanFrom_found (hwent.kept.cfg.trans hcfg.symm) htr hsame
      (Nat.succ_le_of_lt hlt) (by rw [hwent.kept.cfg]; exact hd) hscanMissed hready hhit
    obtain ⟨t, hrun, h⟩ := exec_found hacc rfl (hfallback.trans (findNextFallback_of_scan hscan)) (hfound.after hwent)
    refine ⟨t, hrun, h.ok, h.rbool, h.sstate, h.addrValid, h.cursor, h.lastAddr, ?_, ?_, h.ready.trans hxready,
      h.tr.trans hxtr⟩
    · rw [h.frames, List.append_assoc, hwent.kept.cfg]
      rfl
    · rw [h.records, List.append_assoc]
  · intro s u v sid sent sent' recs recs' hacc hmissed hscanMissed
    obtain ⟨m, hfallback, hwent, hcfg, htr, hsame, -⟩ := findNext_went (.findNextDevice sid) hmissed
    obtain ⟨x, hscan, hscanned, hxready, hxtr⟩ := scanFrom_exhausted (start := s.cursor + 1)
      (hwent.kept.cfg.trans hcfg.symm) htr hsame (by rw [hwent.kept.cfg]; exact hscanMissed)
    obtain ⟨t, hrun, hok, hbool, hframes, hlog, hready, ht⟩ := exec_exhausted hacc rfl
      (hfallback.trans (findNextFallback_of_scan hscan)) (hwent.trans hscanned)
    exact ⟨t, hrun, hok, hbool, hframes, by rw [hlog, List.append_assoc], hready.trans hxready, ht.trans hxtr⟩

/-- Settles O42: the body is a store of eight bytes, and nothing else of the state changes. -/
theorem getAddressDelivers : Obligations.GetAddressDelivers := by
  intro s sid off hbuf ⟨hwf, hfree, hsid⟩
  obtain ⟨hlog, hsearch, -, hrest⟩ :=
    failureKept_deliver (sid := sid) .ok (Traffic.refl (s.accept (.getAddress sid off)))
  obtain ⟨hresult, -⟩ := (Kept.refl (s.accept (.getAddress sid off))).delivered .ok hsid
  have hended : Memory.wf (deliver sid .ok (s.accept (.getAddress sid off))).goIdle.buf = true := hbuf
  have hlen := lastAddrBytes_length s
  rw [RegisterWriters.exec_getAddress]
  refine ⟨memWrite (deliver sid .ok (s.accept (.getAddress sid off))).goIdle off (lastAddrBytes s),
    runRouted_accepted hwf hfree, resultOk_of_result hresult, fun hvalid => ?_, fun a ha => ?_, rfl, rfl, hlog, hsearch,
    hrest⟩
  · have hread := memRead_memWrite hended off (lastAddrBytes s)
    rw [hlen] at hread
    rw [hread, lastAddrBytes, hvalid]
    rfl
  · exact read_memWrite_outside hended (by rwa [hlen])

end Sys2Proof.Proofs.DeviceSearch

/-! The arbiter (45_arbiter.md). beginExclusive and a polling session's attempt end in one pass of the acquire loop,
which the flag decides: it is free and the session gets the token (`Acquired`), or it is taken and the session polls or
is told so. What the arbiter's operations leave alone is `Arbitrated`. -/

namespace Sys2Proof.Proofs.Arbiter

open Sys2Proof Sys2Proof.Machine Sys2Proof.Proofs.Invariants Sys2Proof.Proofs.HostPort Sys2Proof.Proofs.Router

section

variable {s t : State} {sid : Nat} {blocking : Bool}

/-! Runs (R36, R244). -/

/-- A run that answers a next state has answered one at its first step. -/
theorem run_succ_next {M : Host.Core} {k : Nat} {s t : M.State} (h : M.run (k + 1) s = .next t) :
    ∃ u, M.step s = .next u ∧ M.run k u = .next t := by
  unfold Host.Core.run at h
  split at h
  · exact ⟨_, ‹_›, h⟩
  · cases h
  · cases h

/-- What every step keeps holds after every run. -/
theorem run_keeps_inv (k : Nat) (h : Inv s) (hrun : Sys2Proof.core.run k s = .next t) : Inv t := by
  induction k generalizing s with
  | zero =>
    cases hrun
    exact h
  | succ k ih =>
    obtain ⟨u, hstep, hrest⟩ := run_succ_next hrun
    exact ih (stepKeepsInvariant s u h hstep) hrest

/-! One pass of the acquire loop (R242). -/

/-- The session has been told that it has the token, and has it. -/
structure Acquired (sid : Nat) (t : State) : Prop where
  resultOk : ResultOk t sid
  rbool : (t.session sid).result.rbool = true
  holds : (t.session sid).holds = true
  astate : (t.session sid).astate = .idle
  excl : t.excl = true

theorem acquirePass_free (blocking : Bool) (hsid : sid < s.sessions.length) (hfree : s.excl = false) :
    Acquired sid (acquirePass sid blocking s) := by
  have hpass : acquirePass sid blocking s = deliver sid (.okBool true) (grantToken sid (s.setExcl true)) := by
    simp [acquirePass, transportTryAcquire, hfree]
  have hgranted : (grantToken sid (s.setExcl true)).session sid =
      { s.session sid with holds := true, astate := .idle } :=
    updSession_session_self (s.setExcl true) sid _ hsid
  have hsession := deliver_session sid (.okBool true) (grantToken sid (s.setExcl true))
    (by simpa [grantToken] using hsid)
  rw [hgranted] at hsession
  rw [hpass]
  exact
    { resultOk := resultOk_of_okBool (congrArg Session.result hsession)
      rbool := by rw [hsession]; rfl
      holds := by rw [hsession]
      astate := by rw [hsession]
      excl := rfl }

theorem acquirePass_taken_blocking (htaken : s.excl = true) : acquirePass sid true s = startPolling sid s := by
  simp [acquirePass, transportTryAcquire, htaken]

theorem acquirePass_taken_nonblocking (htaken : s.excl = true) :
    acquirePass sid false s = deliver sid (.okBool false) s := by
  simp [acquirePass, transportTryAcquire, htaken]

theorem startPolling_session (hsid : sid < s.sessions.length) :
    (startPolling sid s).session sid = { s.session sid with astate := .polling } :=
  updSession_session_self s sid _ hsid

/-! beginExclusive and endExclusive (R242, R243, R247). -/

theorem beginExclusive_of_holds (hholds : (s.session sid).holds = true) :
    beginExclusive sid blocking s = deliver sid (.okBool true) s := by
  simp [beginExclusive, hholds]

theorem beginExclusive_of_not_holds (hnot : (s.session sid).holds = false) :
    beginExclusive sid blocking s = acquirePass sid blocking s := by
  simp [beginExclusive, hnot]

theorem exec_beginExclusive (hwf : wellFormed s.cfg (.beginExclusive sid blocking) = true) :
    exec (.beginExclusive sid blocking) s = .next (beginExclusive sid blocking s) := runArbiter_accepted hwf

theorem exec_endExclusive (hwf : wellFormed s.cfg (.endExclusive sid) = true) :
    exec (.endExclusive sid) s = .next (endExclusive sid s) := runArbiter_accepted hwf

/-- endExclusive reports `OK`, ends with its session holding nothing, and keeps the rest of it (R243). -/
theorem endExclusive_session (hsid : sid < s.sessions.length) :
    (endExclusive sid s).session sid =
      { s.session sid with holds := false, result := resultOf s.draws .ok } := by
  unfold endExclusive
  cases hholds : (s.session sid).holds with
  | true =>
    have hdropped : (dropToken sid (transportRelease s)).session sid = { s.session sid with holds := false } :=
      updSession_session_self (transportRelease s) sid _ hsid
    rw [if_pos rfl, deliver_session sid _ _ (by simpa [dropToken, transportRelease] using hsid), hdropped]
    rfl
  | false =>
    rw [if_neg Bool.false_ne_true, deliver_session sid _ s hsid, ← hholds]

/-- The flag is released exactly if the session holds it (R243). -/
theorem endExclusive_excl (sid : Nat) (s : State) :
    (endExclusive sid s).excl = if (s.session sid).holds then false else s.excl := by
  unfold endExclusive
  split <;> rfl

/-! A polling session's attempt (R248). -/

theorem step_attempt {rest : List Event} (ha : s.agenda = .attempt sid :: rest)
    (hpolling : (s.session sid).astate = .polling) :
    step s = .next (acquirePass sid true (s.setAgenda rest)) := by
  have hpass : pollAttempt sid (s.setAgenda rest) = acquirePass sid true (s.setAgenda rest) := if_pos hpolling
  simp only [step, stepBody, ha, hpass]

/-- The attempt of a session that has begun to poll, once everyone else has settled what the flag is. -/
theorem step_attempt_startPolling (hsid : sid < s.sessions.length) (rest : List Event) (b : Bool) :
    step (((startPolling sid s).setAgenda (.attempt sid :: rest)).setExcl b) =
      .next (acquirePass sid true (((startPolling sid s).setAgenda rest).setExcl b)) :=
  step_attempt rfl (congrArg Session.astate (startPolling_session hsid))

end

/-- Settles O47: (I-b) and (I-c) are parts of the invariant, which every run keeps. -/
theorem atMostOneHolderInEveryRun : Obligations.AtMostOneHolderInEveryRun := by
  intro k s t h hrun
  have hinv := run_keeps_inv k h hrun
  exact ⟨hinv.oneHolder, hinv.holderExcl⟩

/-- Settles O43: the first pass takes the flag, and `Arbitrated` is the frame. -/
theorem beginExclusiveAcquiresFreeFlag : Obligations.BeginExclusiveAcquiresFreeFlag := by
  intro s sid blocking hwf hsid hnot hfree
  have hacquired := acquirePass_free blocking hsid hfree
  obtain ⟨⟨_, _, _, hstate⟩, hothers⟩ := acquirePass_arbitrated sid blocking s
  rw [exec_beginExclusive hwf, beginExclusive_of_not_holds hnot]
  refine ⟨_, rfl, hacquired.resultOk, hacquired.rbool, hacquired.holds, hacquired.astate, hacquired.excl, ?_⟩
  rw [hstate] at hothers ⊢
  exact ⟨rfl, rfl, rfl, rfl, ⟨rfl, rfl, rfl, rfl⟩, fun _ => rfl, hothers, rfl, rfl, rfl⟩

/-- Settles O44: each part is one pass of the acquire loop, on a taken flag or on a free one. -/
theorem beginExclusiveWaitsForTakenFlag : Obligations.BeginExclusiveWaitsForTakenFlag := by
  intro s sid hwf hsid hnot htaken
  have hpolling := startPolling_session hsid
  have hsid' : sid < (startPolling sid s).sessions.length := by simpa [startPolling] using hsid
  constructor
  · have hsession := deliver_session sid (.okBool false) s hsid
    rw [exec_beginExclusive (blocking := false) hwf, beginExclusive_of_not_holds hnot,
      acquirePass_taken_nonblocking htaken]
    exact ⟨_, rfl, resultOk_of_okBool (congrArg Session.result hsession), by rw [hsession]; rfl,
      by rw [hsession]; exact hnot, htaken, fun x hx => deliver_session_ne sid x _ s hx⟩
  · rw [exec_beginExclusive hwf, beginExclusive_of_not_holds hnot, acquirePass_taken_blocking htaken]
    refine ⟨_, rfl, by rw [hpolling], by rw [hpolling], by rw [hpolling]; exact hnot, htaken,
      fun x hx => updSession_session_ne s sid x _ hx.symm, fun rest => ⟨?_, ?_⟩⟩
    · have hagain := startPolling_session (s := ((startPolling sid s).setAgenda rest).setExcl true) hsid'
      rw [step_attempt_startPolling hsid, acquirePass_taken_blocking rfl]
      refine ⟨_, rfl, by rw [hagain], ?_⟩
      rw [hagain]
      exact (congrArg Session.holds hpolling).trans hnot
    · have hacquired := acquirePass_free (s := ((startPolling sid s).setAgenda rest).setExcl false) true hsid' rfl
      obtain ⟨⟨_, _, _, hstate⟩, -⟩ :=
        acquirePass_arbitrated sid true (((startPolling sid s).setAgenda rest).setExcl false)
      exact ⟨_, step_attempt_startPolling hsid rest false, hacquired.resultOk, hacquired.rbool, hacquired.holds,
        hacquired.astate, hacquired.excl, hstate ▸ rfl⟩

/-- Settles O45: the holder's beginExclusive only reports, so that it still is the holder endExclusive drops. -/
theorem beginExclusiveDoesNotNest : Obligations.BeginExclusiveDoesNotNest := by
  intro s sid blocking hwf hsid hholds
  have hsession := deliver_session sid (.okBool true) s hsid
  have hsid' : sid < (deliver sid (.okBool true) s).sessions.length := by simpa [deliver] using hsid
  rw [exec_beginExclusive hwf, beginExclusive_of_holds hholds]
  refine ⟨_, rfl, resultOk_of_okBool (congrArg Session.result hsession), by rw [hsession]; rfl,
    ⟨rfl, fun x => deliver_tokens sid x _ s⟩, _, exec_endExclusive hwf, by rw [endExclusive_session hsid'], ?_⟩
  rw [endExclusive_excl, hsession, hholds]
  rfl

/-- Settles O46: `endExclusive_session` and `endExclusive_excl` are what it does, `Arbitrated` is the frame. -/
theorem endExclusiveReleasesOnlyOwnHold : Obligations.EndExclusiveReleasesOnlyOwnHold := by
  intro s sid hwf hsid
  have hsession := endExclusive_session hsid
  obtain ⟨⟨_, _, _, hstate⟩, hothers⟩ := endExclusive_arbitrated sid s
  refine ⟨_, exec_endExclusive hwf, resultOk_of_result (congrArg Session.result hsession), by rw [hsession],
    by rw [hsession], endExclusive_excl sid s, hothers, ?_⟩
  rw [hstate]
  exact ⟨rfl, rfl, rfl, rfl, ⟨rfl, rfl, rfl, rfl⟩, fun _ => rfl, rfl, rfl, rfl⟩

end Sys2Proof.Proofs.Arbiter

/-! The tokens guard nothing (45_arbiter.md R246, R274). `Blind f` says that putting the tokens away before `f` or after
it comes to the same, and that the answer is the same. Every named update but the arbiter's commutes with putting them
away, so that a part of an operation is blind because the parts it is made of are. -/

namespace Sys2Proof.Proofs.TokenBlindness

open Sys2Proof Sys2Proof.Machine Sys2Proof.Proofs.RegisterWriters

section

variable {α : Type} (s : State)

/-! What is read is no token. -/

@[simp] theorem forgetTokens_cfg : (forgetTokens s).cfg = s.cfg := rfl
@[simp] theorem forgetTokens_cursor : (forgetTokens s).cursor = s.cursor := rfl
@[simp] theorem forgetTokens_seq : (forgetTokens s).seq = s.seq := rfl
@[simp] theorem forgetTokens_draws : (forgetTokens s).draws = s.draws := rfl
@[simp] theorem forgetTokens_readyAt (c : Nat) : (forgetTokens s).readyAt c = s.readyAt c := rfl
@[simp] theorem forgetTokens_memRead (addr n : Nat) : memRead (forgetTokens s) addr n = memRead s addr n := rfl

/-! What is written is no token. -/

@[simp] theorem forgetTokens_setReady (c : Nat) (b : Bool) :
    (forgetTokens s).setReady c b = forgetTokens (s.setReady c b) := rfl
@[simp] theorem forgetTokens_setCursor (c : Nat) : (forgetTokens s).setCursor c = forgetTokens (s.setCursor c) := rfl
@[simp] theorem forgetTokens_setSState (st : SState) :
    (forgetTokens s).setSState st = forgetTokens (s.setSState st) := rfl
@[simp] theorem forgetTokens_setPhase (p : Phase) : (forgetTokens s).setPhase p = forgetTokens (s.setPhase p) := rfl
@[simp] theorem forgetTokens_setCi (c : Nat) : (forgetTokens s).setCi c = forgetTokens (s.setCi c) := rfl
@[simp] theorem forgetTokens_loadFrame (ch : Byte) (cmd : WireCmd) (n : Nat) (frame : List Byte) :
    (forgetTokens s).loadFrame ch cmd n frame = forgetTokens (s.loadFrame ch cmd n frame) := rfl
@[simp] theorem forgetTokens_setRxhdr (bytes : List Byte) :
    (forgetTokens s).setRxhdr bytes = forgetTokens (s.setRxhdr bytes) := rfl
@[simp] theorem forgetTokens_endExchange (r : XRes) :
    (forgetTokens s).endExchange r = forgetTokens (s.endExchange r) := rfl
@[simp] theorem forgetTokens_accept (i : Instr) : (forgetTokens s).accept i = forgetTokens (s.accept i) := rfl
@[simp] theorem forgetTokens_logExchange (sid : Nat) (op : HostOp) (c : Nat) (cmd : WireCmd) (r : XRes) :
    (forgetTokens s).logExchange sid op c cmd r = forgetTokens (s.logExchange sid op c cmd r) := rfl
@[simp] theorem forgetTokens_waitSettle (cmd : WireCmd) :
    waitSettle cmd (forgetTokens s) = forgetTokens (waitSettle cmd s) := rfl

/-- A change of one element may come before or after a change of all of them that commutes with it. -/
theorem modify_map_comm {f g : α → α} (h : ∀ a, f (g a) = g (f a)) (l : List α) (n : Nat) :
    (l.map g).modify n f = (l.modify n f).map g := by
  induction l generalizing n with
  | nil => cases n <;> rfl
  | cons a l ih =>
    cases n with
    | zero => exact congrArg (· :: l.map g) (h a)
    | succ n => exact congrArg (g a :: ·) (ih n)

/-- A result is given to a session whether or not it holds the token (R93). -/
@[simp] theorem forgetTokens_deliver (sid : Nat) (v : Verdict) :
    deliver sid v (forgetTokens s) = forgetTokens (deliver sid v s) := by
  have hsessions := modify_map_comm (f := fun e : Session => { e with result := resultOf s.draws v })
    (g := fun e => { e with holds := false }) (fun _ => rfl) s.sessions sid
  exact congrArg (fun l => { s with excl := false, sessions := l, draws := s.draws + 1 }) hsessions

/-! The exchange. -/

/-- `f` does the same, and answers the same, whoever holds the token. -/
abbrev Blind (f : State → α × State) : Prop := ∀ s, f (forgetTokens s) = ((f s).1, forgetTokens (f s).2)

theorem transportWrite_blind (frame : List Byte) : Blind (transportWrite frame) := fun _ => rfl

theorem transportFlush_blind : Blind transportFlush := fun _ => rfl

theorem transportRead_blind (n : Nat) : Blind (transportRead n) := fun _ => rfl

theorem sendRequest_blind (ch : Byte) (cmd : WireCmd) (pay : List Byte) (n : Nat) :
    Blind (sendRequest ch cmd pay n) := by
  intro s
  simp only [sendRequest, forgetTokens_cfg, forgetTokens_loadFrame, transportWrite_blind, forgetTokens_setPhase,
    transportFlush_blind]
  split <;> rfl

theorem readPayload_blind (ch status len : Byte) : Blind (readPayload ch status len) := by
  intro s
  unfold readPayload
  split
  · rfl
  · rfl

theorem readResponse_blind : Blind readResponse := by
  intro s
  simp only [readResponse, forgetTokens_setPhase, transportRead_blind, forgetTokens_setRxhdr]
  split
  · exact readPayload_blind ..
  · rfl

theorem exchange_blind (ch : Byte) (cmd : WireCmd) (pay : List Byte) (n : Nat) :
    Blind (exchange ch cmd pay n) := by
  intro s
  simp only [exchange, sendRequest_blind, forgetTokens_waitSettle, readResponse_blind]
  split
  · split <;> rfl
  · rfl

theorem forgetTokens_downgradeOn (c : Nat) (r : XRes) :
    downgradeOn c r (forgetTokens s) = forgetTokens (downgradeOn c r s) := by
  cases r with
  | ok | skipped => rfl
  | err =>
    simp only [downgradeOn, forgetTokens_cfg, forgetTokens_setReady]
    exact (apply_ite forgetTokens ..).symm

theorem exchangeCh_blind (c : Nat) (cmd : WireCmd) (pay : List Byte) (n : Nat) : Blind (exchangeCh c cmd pay n) := by
  intro s
  simp only [exchangeCh, exchange_blind, forgetTokens_downgradeOn]

theorem route1_blind (cmd : WireCmd) (pay : List Byte) (n : Nat) : Blind (route1 cmd pay n) := by
  intro s
  simp only [route1, forgetTokens_readyAt, forgetTokens_cursor, exchangeCh_blind]
  split <;> rfl

/-! The bodies of the routed operations. -/

theorem connectPort_blind : Blind connectPort := fun _ => rfl

theorem forgetTokens_broadcastOver (sid : Nat) (op : HostOp) (cmd : WireCmd) (pay : List Byte) (cs : List Nat) :
    broadcastOver sid op cmd pay cs (forgetTokens s) = forgetTokens (broadcastOver sid op cmd pay cs s) := by
  induction cs generalizing s with
  | nil => rfl
  | cons c cs ih =>
    simp only [broadcastOver, forgetTokens_setCi, forgetTokens_cfg, forgetTokens_readyAt, exchangeCh_blind,
      forgetTokens_logExchange, ih, apply_ite forgetTokens]

theorem broadcast_blind (sid : Nat) (op : HostOp) (cmd : WireCmd) (pay : List Byte) :
    Blind (broadcast sid op cmd pay) := fun s =>
  congrArg (Prod.mk _) (forgetTokens_broadcastOver s sid op cmd pay (channelsFrom s.cfg 0))

theorem probeOver_blind (sid : Nat) (op : HostOp) (cs : List Nat) (any : Bool) : Blind (probeOver sid op cs any) := by
  induction cs generalizing any with
  | nil => exact fun _ => rfl
  | cons c cs ih =>
    intro s
    simp only [probeOver, forgetTokens_setCi, forgetTokens_setReady, forgetTokens_cfg, exchange_blind]
    split <;> simp only [forgetTokens_logExchange, ih]

theorem probe_blind (sid : Nat) (op : HostOp) : Blind (probe sid op) := fun s =>
  probeOver_blind sid op (channelsFrom s.cfg 0) false (invalidateSearch s)

theorem fetchAddr_blind (sid : Nat) (op : HostOp) (c : Nat) : Blind (fetchAddr sid op c) := by
  intro s
  simp only [fetchAddr, forgetTokens_cfg, exchangeCh_blind]
  split <;> rfl

theorem findOn_blind (sid : Nat) (op : HostOp) (c : Nat) (cmd : WireCmd) : Blind (findOn sid op c cmd) := by
  intro s
  simp only [findOn, forgetTokens_cfg, forgetTokens_draws, exchangeCh_blind]
  split
  · split
    · exact fetchAddr_blind ..
    · rfl
  · rfl
  · rfl

theorem scanOver_blind (sid : Nat) (op : HostOp) (cs : List Nat) : Blind (scanOver sid op cs) := by
  induction cs with
  | nil => exact fun _ => rfl
  | cons c cs ih =>
    intro s
    simp only [scanOver, forgetTokens_setSState, forgetTokens_setCursor, forgetTokens_setCi, forgetTokens_readyAt,
      findOn_blind]
    split
    · split
      · rfl
      · exact ih _
    · exact ih _

theorem scanFrom_blind (sid : Nat) (op : HostOp) (start : Nat) : Blind (scanFrom sid op start) := fun s =>
  scanOver_blind sid op (channelsFrom s.cfg start) s

theorem findFirst_blind (sid : Nat) : Blind (findFirst sid) := by
  intro s
  simp only [findFirst, probe_blind, scanFrom_blind]

theorem findNextFallback_blind (sid c : Nat) : Blind (findNextFallback sid c) := by
  intro s
  simp only [findNextFallback, scanFrom_blind]

theorem findNext_blind (sid : Nat) : Blind (findNext sid) := by
  intro s
  simp only [findNext, forgetTokens_setSState, forgetTokens_readyAt, forgetTokens_cursor, findOn_blind]
  split
  · split
    · rfl
    · exact findNextFallback_blind ..
  · exact findNextFallback_blind ..

theorem presentOver_blind (sid : Nat) (addr : DevAddr) (cs : List Nat) : Blind (presentOver sid addr cs) := by
  induction cs with
  | nil => exact fun _ => rfl
  | cons c cs ih =>
    intro s
    simp only [presentOver, forgetTokens_setCi, forgetTokens_readyAt, forgetTokens_cfg, forgetTokens_draws,
      exchangeCh_blind]
    split
    · split
      · split
        · rfl
        · exact ih _
      · exact ih _
      · split
        · rfl
        · simp only [forgetTokens_setCursor, forgetTokens_logExchange, ih]
    · exact ih _

theorem selectDevice_blind (sid : Nat) (addr : DevAddr) : Blind (selectDevice sid addr) := by
  intro s
  simp only [selectDevice, forgetTokens_cfg, forgetTokens_draws, forgetTokens_cursor, route1_blind]
  split
  · rfl
  · rfl
  · split <;> rfl

theorem moveBlock_blind (off n : Nat) : Blind (moveBlock off n) := by
  intro s
  simp only [moveBlock, forgetTokens_memRead, route1_blind]
  split <;> rfl

theorem transfer_blind (cmd : WireCmd) (pay : List Byte) (n : Nat) (onOk : List Byte → Verdict) (onSkip : Verdict) :
    Blind (transfer cmd pay n onOk onSkip) := by
  intro s
  simp only [transfer, route1_blind]

/-! Whole instructions. -/

/-- The outcome with the tokens of its next state put away. -/
def forgetOutcome : Host.Outcome State Fault Refusal → Host.Outcome State Fault Refusal
  | .next t => .next (forgetTokens t)
  | .fault r => .fault r
  | .refused r => .refused r

theorem runRouted_blind (i : Instr) (sid : Nat) {body : State → Verdict × State} (hbody : Blind body) :
    runRouted i sid body (forgetTokens s) = forgetOutcome (runRouted i sid body s) := by
  simp only [runRouted, forgetTokens_cfg, forgetTokens_seq, forgetTokens_accept, hbody _, forgetTokens_deliver]
  split <;> rfl

theorem runWire_blind (i : Instr) (ch : Byte) (cmd : WireCmd) (pay : List Byte) :
    runWire i ch cmd pay (forgetTokens s) = forgetOutcome (runWire i ch cmd pay s) := by
  simp only [runWire, forgetTokens_cfg, forgetTokens_readyAt, exchangeCh_blind]
  split <;> rfl

theorem execCmdPingChannel_blind (ch : Byte) :
    execCmdPingChannel ch (forgetTokens s) = forgetOutcome (execCmdPingChannel ch s) := by
  simp only [execCmdPingChannel, forgetTokens_cfg, exchange_blind]
  split <;> rfl

theorem checkResponse_blind (ch status : Byte) (pay : List Byte) :
    checkResponse ch status pay (forgetTokens s) = forgetOutcome (checkResponse ch status pay s) := by
  simp only [checkResponse, forgetTokens_cfg, forgetTokens_seq, forgetTokens_endExchange, forgetTokens_downgradeOn]
  split <;> rfl

theorem exec_blind {i : Instr} (hi : isArbiterOp i = false) :
    exec i (forgetTokens s) = forgetOutcome (exec i s) := by
  cases i with
  | cmdPingChannel ch => exact execCmdPingChannel_blind s ch
  | cmdFindFirst | cmdFindNext | cmdGetAddress | cmdSetSearchOnlyAlarming | cmdSetNoResetSearch | cmdSetSearchAll
  | cmdPutBit | cmdGetByte | cmdGetBlock | cmdDataBlock | cmdReset | cmdPutByte | cmdTargetFamily
  | cmdTargetAllFamilies | cmdSearchRom | cmdMatchRom => exact runWire_blind s ..
  | cmdSetPowerNormal => rfl
  | respSuccess | respFailure | respOther => exact checkResponse_blind s ..
  | selectPort => exact runRouted_blind s _ _ connectPort_blind
  | freePort =>
    simp only [exec_freePort]
    exact runRouted_blind s _ _ fun _ => rfl
  | adapterDetected sid =>
    simp only [exec_adapterDetected]
    exact runRouted_blind s _ _ fun u => by simp only [probe_blind]
  | findFirstDevice sid => exact runRouted_blind s _ _ (findFirst_blind sid)
  | findNextDevice sid => exact runRouted_blind s _ _ (findNext_blind sid)
  | getAddress sid off =>
    simp only [exec_getAddress]
    exact runRouted_blind s _ _ fun _ => rfl
  | isPresent sid addr => exact runRouted_blind s _ _ fun u => presentOver_blind sid addr _ u
  | select sid addr => exact runRouted_blind s _ _ (selectDevice_blind sid addr)
  | reset =>
    simp only [exec_reset]
    exact runRouted_blind s _ _ fun u => by simp only [forgetTokens_cfg, route1_blind]
  | putBit | getBit | putByte | getByte => exact runRouted_blind s _ _ fun u => transfer_blind _ _ _ _ _ u
  | getBlock => exact runRouted_blind s _ _ (transfer_blind _ _ _ _ _)
  | dataBlock sid off n => exact runRouted_blind s _ _ (moveBlock_blind off n.toNat)
  | setSearchOnlyAlarmingDevices | setNoResetSearch | setSearchAllDevices | targetFamily | targetAllFamilies =>
    exact runRouted_blind s _ _ (broadcast_blind _ _ _ _)
  | beginExclusive | endExclusive => cases hi

end

/-- Settles O48: every instruction is made of parts that are `Blind`. -/
theorem tokenGuardsNoOtherInstruction : Obligations.TokenGuardsNoOtherInstruction := by
  intro s i hi
  rw [exec_blind s hi]
  cases exec i s <;> rfl

end Sys2Proof.Proofs.TokenBlindness

/-! Which operation ends with which error kind (60_exceptions.md R264). The table of R264 is `errorRow`. The body of an
operation ends with a verdict that is `Among` the kinds of its row, and the result of a verdict names no other kind. An
operation that has used up a draw has delivered such a verdict (`exec_reported`). -/

namespace Sys2Proof.Proofs.ErrorKinds

open Sys2Proof Sys2Proof.Machine Sys2Proof.Proofs.RegisterWriters Sys2Proof.Proofs.Arbiter

/-! The rows of R264. -/

/-- The kinds of an exchange's causes (R261). -/
abbrev exchangeKinds : List ErrKind := [.communication, .protocol, .remoteFailure]

/-- The kinds isPresent and select can end with (R200). -/
abbrev presenceRow : PresencePolicy → List ErrKind
  | .raise => exchangeKinds
  | .asNotFound => []

/-- The kinds an operation can end with (R264). -/
def errorRow (policy : PresencePolicy) : HostOp → List ErrKind
  | .selectPort => [.connection]
  | .reset => [.communication]
  | .putBit | .getBit | .putByte | .getByte | .getBlock | .dataBlock => exchangeKinds
  | .isPresent | .select => presenceRow policy
  | .freePort | .adapterDetected | .findFirstDevice | .findNextDevice | .getAddress | .setSearchOnlyAlarmingDevices
  | .setNoResetSearch | .setSearchAllDevices | .targetFamily | .targetAllFamilies | .beginExclusive
  | .endExclusive => []

/-- The operations whose row is empty. -/
theorem errorRow_eq_nil (policy : PresencePolicy) :
    ∀ op ∈ [HostOp.freePort, .adapterDetected, .findFirstDevice, .findNextDevice, .getAddress,
      .setSearchOnlyAlarmingDevices, .setNoResetSearch, .setSearchAllDevices, .targetFamily, .targetAllFamilies,
      .beginExclusive, .endExclusive], errorRow policy op = [] := by
  simp [errorRow]

/-- The operations that surface what an exchange fails with, whatever the policy. -/
theorem errorRow_subset_exchangeKinds (policy : PresencePolicy) :
    ∀ op ∈ [HostOp.putBit, .getBit, .putByte, .getByte, .getBlock, .dataBlock, .isPresent, .select],
      errorRow policy op ⊆ exchangeKinds := by
  cases policy <;> decide

theorem errorRow_asNotFound : ∀ op ∈ [HostOp.isPresent, .select], errorRow .asNotFound op = [] := by
  decide

section

variable {s t u : State} {i : Instr} {sid : Nat} {op : HostOp} {kinds more : List ErrKind} {v : Verdict}
variable {r : HostResult} {body : State → Verdict × State} {cmd : WireCmd} {pay : List Byte} {n : Nat}

/-! Verdicts and results (R93, R94, R261). -/

/-- If the verdict is an error, its kind is one of `kinds`. -/
abbrev Among (kinds : List ErrKind) (v : Verdict) : Prop :=
  ∀ kind cause info, v = .err kind cause info → kind ∈ kinds

/-- The result is no error and names none, or it names one of `kinds`. -/
def Names (kinds : List ErrKind) (r : HostResult) : Prop :=
  (r.status ≠ .err ∧ r.kind = none) ∨ ∃ kind ∈ kinds, r.kind = some kind

theorem among_err {kind : ErrKind} (h : kind ∈ kinds) (cause : Cause) (info : BitVec 16) :
    Among kinds (.err kind cause info) := by
  rintro _ _ _ ⟨⟩
  exact h

/-- `ConnectFail` is the one cause that no exchange has (R261). -/
theorem raise_among {cause : Cause} (h : cause ≠ .connectFail) (info : BitVec 16) :
    Among exchangeKinds (raise cause info) := by
  refine among_err ?_ cause info
  cases cause with
  | connectFail => exact absurd rfl h
  | writeFail | shortHeader | shortPayload | lengthMismatch | channelMismatch | statusFailure | statusOther => decide

theorem Among.names (h : Among kinds v) (d : Nat) : Names kinds (resultOf d v) := by
  cases v with
  | ok | okBool | okByte | okBlock | skipped | skippedBool => exact .inl ⟨nofun, rfl⟩
  | err kind cause info => exact .inr ⟨kind, h kind cause info rfl, rfl⟩

theorem Names.mono (h : Names kinds r) (hsub : kinds ⊆ more) : Names more r := by
  obtain hnone | ⟨kind, hmem, hkind⟩ := h
  · exact .inl hnone
  · exact .inr ⟨kind, hsub hmem, hkind⟩

theorem Names.kind_mem (h : Names kinds r) : r.kind ∈ none :: kinds.map some := by
  obtain ⟨-, hnone⟩ | ⟨kind, hmem, hkind⟩ := h
  · exact hnone ▸ List.mem_cons_self
  · exact hkind ▸ List.mem_cons_of_mem _ (List.mem_map_of_mem hmem)

theorem Names.status_ne_err (h : Names [] r) : r.status ≠ .err := by
  obtain ⟨hstatus, -⟩ | ⟨_, hmem, -⟩ := h
  · exact hstatus
  · exact absurd hmem List.not_mem_nil

/-! The bodies that can fail. -/

/-- What comes of a routed exchange (R162, R120). -/
theorem route1_cases (cmd : WireCmd) (pay : List Byte) (n : Nat) (s : State) :
    (∃ p, (route1 cmd pay n s).1 = .ok p) ∨ (route1 cmd pay n s).1 = .skipped ∨
      ∃ cause info, (route1 cmd pay n s).1 = .err cause info ∧ cause ≠ .connectFail := by
  unfold route1
  split
  · obtain ⟨p, hok, -⟩ | hfails := exchangeCh_cases s.cursor cmd pay n s
    · exact .inl ⟨p, hok⟩
    · exact .inr (.inr hfails)
  · exact .inr (.inl rfl)

/-- The connection code has one way to fail (R170). -/
theorem connectPort_among (s : State) : Among [.connection] (connectPort s).1 := by
  unfold connectPort
  dsimp only
  split
  · nofun
  · exact among_err List.mem_cons_self _ _

theorem transfer_among {onOk : List Byte → Verdict} {onSkip : Verdict} (hok : ∀ p, Among exchangeKinds (onOk p))
    (hskip : Among exchangeKinds onSkip) : Among exchangeKinds (transfer cmd pay n onOk onSkip s).1 := by
  obtain ⟨p, hres⟩ | hres | ⟨cause, info, hres, hcause⟩ := route1_cases cmd pay n s
  all_goals simp only [transfer, hres, transferVerdict]
  · exact hok p
  · exact hskip
  · exact raise_among hcause info

theorem moveBlock_among (off n : Nat) (s : State) : Among exchangeKinds (moveBlock off n s).1 := by
  obtain ⟨p, hres⟩ | hres | ⟨cause, info, hres, hcause⟩ := route1_cases .dataBlock (memRead s off n) n s
  all_goals simp only [moveBlock, hres]
  · nofun
  · nofun
  · exact raise_among hcause info

/-- reset has one kind for every cause (R197). -/
theorem resetVerdict_among (x : XRes) : Among [.communication] (resetVerdict x) := by
  cases x with
  | ok | skipped => nofun
  | err cause info => exact among_err List.mem_cons_self cause info

theorem selectDevice_among (sid : Nat) (addr : DevAddr) (s : State) :
    Among (presenceRow s.cfg.presencePolicy) (selectDevice sid addr s).1 := by
  obtain ⟨p, hres⟩ | hres | ⟨cause, info, hres, hcause⟩ :=
    route1_cases .matchRom (addrBytes addr) (respLenOf s.cfg .matchRom (addrBytes addr)) s
  all_goals simp only [selectDevice, hres]
  · nofun
  · nofun
  · cases s.cfg.presencePolicy with
    | raise => exact raise_among hcause info
    | asNotFound => nofun

theorem presentOver_among (sid : Nat) (addr : DevAddr) (cs : List Nat) (s : State) :
    Among (presenceRow s.cfg.presencePolicy) (presentOver sid addr cs s).1 := by
  obtain ⟨b, hb⟩ | ⟨hraise, cause, info, herr, hcause⟩ := (presentOver_spec sid addr cs s).verdict
  · rw [hb]
    nofun
  · rw [hraise, herr]
    exact raise_among hcause info

/-- findNextDevice ends with a boolean, on its own channel and in the fallback (R224). -/
theorem findNext_among (sid : Nat) (s : State) : Among [] (findNext sid s).1 := by
  unfold findNext findNextFallback
  dsimp only
  split
  · split <;> nofun
  · nofun

/-! Whole instructions. -/

/-- In `t` session `sid` has just been given a verdict among `kinds`. -/
def Reported (kinds : List ErrKind) (sid : Nat) (t : State) : Prop :=
  ∃ v u, Among kinds v ∧ t.sessions = (deliver sid v u).sessions

theorem Reported.names (h : Reported kinds sid t) (hsid : sid < t.sessions.length) :
    Names kinds (t.session sid).result := by
  obtain ⟨v, u, hamong, hsessions⟩ := h
  have hlen : sid < u.sessions.length := by simpa [hsessions, deliver] using hsid
  have hsession : t.session sid = (deliver sid v u).session sid := by rw [State.session, hsessions, State.session]
  rw [hsession, deliver_session sid v u hlen]
  exact hamong.names u.draws

/-- A routed operation that has used up a draw has run, and delivered the verdict of its body (R28). -/
theorem runRouted_reported (h : runRouted i sid body s = .next t) (hdraws : t.draws ≠ s.draws)
    (hbody : Among kinds (body (s.accept i)).1) : Reported kinds sid t := by
  obtain rfl | ⟨-, rfl⟩ := runRouted_next h
  · exact absurd rfl hdraws
  · exact ⟨_, _, hbody, rfl⟩

/-- A pass of the acquire loop reports whether it got the flag, unless the session goes on polling (R242). -/
theorem acquirePass_reported {blocking : Bool} (hdraws : (acquirePass sid blocking s).draws ≠ s.draws) :
    Reported [] sid (acquirePass sid blocking s) := by
  unfold acquirePass transportTryAcquire at hdraws ⊢
  cases hexcl : s.excl with
  | false => exact ⟨.okBool true, grantToken sid (s.setExcl true), nofun, rfl⟩
  | true =>
    cases blocking with
    | false => exact ⟨.okBool false, s, nofun, rfl⟩
    | true => exact absurd (by rw [hexcl]; rfl) hdraws

theorem beginExclusive_reported {blocking : Bool} (hdraws : (beginExclusive sid blocking s).draws ≠ s.draws) :
    Reported [] sid (beginExclusive sid blocking s) := by
  cases hholds : (s.session sid).holds with
  | true =>
    rw [beginExclusive_of_holds hholds]
    exact ⟨.okBool true, s, nofun, rfl⟩
  | false =>
    rw [beginExclusive_of_not_holds hholds] at hdraws ⊢
    exact acquirePass_reported hdraws

theorem endExclusive_reported (sid : Nat) (s : State) : Reported [] sid (endExclusive sid s) :=
  ⟨.ok, _, nofun, rfl⟩

/-- An arbiter operation that has used up a draw has run (R96). -/
theorem runArbiter_reported {run : State → State} (h : runArbiter i run s = .next t) (hdraws : t.draws ≠ s.draws)
    (hrun : (run s).draws ≠ s.draws → Reported kinds sid (run s)) : Reported kinds sid t := by
  obtain rfl | rfl := runArbiter_next h
  · exact absurd rfl hdraws
  · exact hrun hdraws

/-- Every host operation that has used up a draw has given its session a verdict of its row (R264). -/
theorem exec_reported (h : exec i s = .next t) (hop : hostOpOf i = some op) (hsid : sessionOf i = some sid)
    (hdraws : t.draws ≠ s.draws) : Reported (errorRow s.cfg.presencePolicy op) sid t := by
  cases i with
  | cmdPingChannel | cmdFindFirst | cmdFindNext | cmdGetAddress | cmdSetSearchOnlyAlarming | cmdSetNoResetSearch
  | cmdSetSearchAll | cmdPutBit | cmdGetByte | cmdGetBlock | cmdDataBlock | cmdReset | cmdPutByte | cmdSetPowerNormal
  | cmdTargetFamily | cmdTargetAllFamilies | cmdSearchRom | cmdMatchRom | respSuccess | respFailure
  | respOther => cases hop
  | selectPort =>
    cases hop; cases hsid
    exact runRouted_reported h hdraws (connectPort_among _)
  | putBit | getBit | putByte | getByte | getBlock =>
    cases hop; cases hsid
    exact runRouted_reported h hdraws (transfer_among (fun _ => nofun) nofun)
  | dataBlock =>
    cases hop; cases hsid
    exact runRouted_reported h hdraws (moveBlock_among _ _ _)
  | reset =>
    cases hop; cases hsid
    rw [exec_reset] at h
    exact runRouted_reported h hdraws (resetVerdict_among _)
  | isPresent sid addr =>
    cases hop; cases hsid
    exact runRouted_reported h hdraws (presentOver_among sid addr _ (s.accept (.isPresent sid addr)))
  | select sid addr =>
    cases hop; cases hsid
    exact runRouted_reported h hdraws (selectDevice_among sid addr (s.accept (.select sid addr)))
  | findNextDevice sid =>
    cases hop; cases hsid
    exact runRouted_reported h hdraws (findNext_among sid _)
  | findFirstDevice | setSearchOnlyAlarmingDevices | setNoResetSearch | setSearchAllDevices | targetFamily
  | targetAllFamilies =>
    cases hop; cases hsid
    exact runRouted_reported h hdraws nofun
  | freePort =>
    cases hop; cases hsid
    rw [exec_freePort] at h
    exact runRouted_reported h hdraws nofun
  | adapterDetected =>
    cases hop; cases hsid
    rw [exec_adapterDetected] at h
    exact runRouted_reported h hdraws nofun
  | getAddress =>
    cases hop; cases hsid
    rw [exec_getAddress] at h
    exact runRouted_reported h hdraws nofun
  | beginExclusive =>
    cases hop; cases hsid
    exact runArbiter_reported h hdraws beginExclusive_reported
  | endExclusive =>
    cases hop; cases hsid
    exact runArbiter_reported h hdraws fun _ => endExclusive_reported ..

end

/-- Settles O51: the result of every operation that gives one names a kind of its row or none; each clause reads off the
rows it speaks of. -/
theorem operationsEndOnlyWithTheirKinds : Obligations.OperationsEndOnlyWithTheirKinds := by
  intro s t i sid op hexec hop hsession ⟨_, _, hsid⟩ hdraws
  have hnames : Names (errorRow s.cfg.presencePolicy op) (t.session sid).result :=
    (exec_reported hexec hop hsession hdraws).names (hsid.trans_eq (exec_ran hexec).sessionsLen.symm)
  refine ⟨fun hmem => ?_, fun hselect => ?_, fun hreset => ?_, fun hmem => ?_, fun hmem hpolicy => ?_⟩
  · rw [errorRow_eq_nil _ op hmem] at hnames
    exact hnames.status_ne_err
  · subst hselect
    exact hnames.kind_mem
  · subst hreset
    exact hnames.kind_mem
  · exact (hnames.mono (errorRow_subset_exchangeKinds _ op hmem)).kind_mem
  · rw [hpolicy, errorRow_asNotFound op hmem] at hnames
    exact hnames.status_ne_err

end Sys2Proof.Proofs.ErrorKinds

/-! Reset and the end of a run (70_reset_and_hazards.md R300 to R302, R335). Power-up is a reset of itself
(`resetCore_resetWith`), so that what reset leaves is said of `resetCore` alone; a run that is over steps only by what
other agents do (`step_of_runOver`). -/

namespace Sys2Proof.Proofs.ResetAndRunEnd

open Sys2Proof Sys2Proof.Machine Sys2Proof.Proofs.Invariants

section

variable {s t : State} {rest : List Event}

/-! What reset leaves (R301). -/

theorem resetCore_resetWith (c : Config) : resetCore (State.resetWith c) = State.resetWith c := rfl

theorem resetCore_session (s : State) (x : Nat) : (resetCore s).session x = Session.initial :=
  resetWith_session s.cfg x

theorem resetCore_readyAt (s : State) (x : Nat) : (resetCore s).readyAt x = false := by
  simp only [State.readyAt, resetCore, State.resetWith, List.getD_eq_getElem?_getD, List.getElem?_replicate]
  split <;> rfl

/-- With nothing to happen the core waits in `PH_IDLE` (R301). -/
theorem step_waits (ha : s.agenda = []) (hp : s.seq.phase = .idle) : step s = .next s := by
  simp only [step, stepBody, ha, sequencerStep, hp]

/-! Quiescence (R302). -/

/-- A session that does not exist polls nothing, so the sessions' list says it of every number. -/
theorem quiescent_iff : quiescent s = true ↔
    s.seq.busy = false ∧ s.seq.phase = .idle ∧ ∀ x, (s.session x).astate = .idle := by
  have hsessions : (∀ e ∈ s.sessions, e.astate = .idle) ↔ ∀ x, (s.session x).astate = .idle := by
    refine ⟨fun h x => ?_, fun h e he => ?_⟩
    · rw [State.session, List.getD_eq_getElem?_getD]
      cases hx : s.sessions[x]? with
      | none => rfl
      | some e => exact h e (List.mem_of_getElem? hx)
    · obtain ⟨x, hx⟩ := List.mem_iff_getElem?.1 he
      have hread := h x
      rwa [State.session, List.getD_eq_getElem?_getD, hx] at hread
  simp only [quiescent, Bool.and_eq_true, Bool.not_eq_true', decide_eq_true_eq, List.all_eq_true, hsessions, and_assoc]

theorem not_quiescent (h : s.seq.busy = true ∨ s.seq.phase ≠ .idle ∨ ∃ x, (s.session x).astate = .polling) :
    quiescent s ≠ true := by
  intro hquiescent
  obtain ⟨hfree, hidle, hnone⟩ := quiescent_iff.1 hquiescent
  obtain hbusy | hphase | ⟨x, hpolling⟩ := h
  · exact Bool.noConfusion (hfree.symm.trans hbusy)
  · exact hphase hidle
  · exact AState.noConfusion ((hnone x).symm.trans hpolling)

theorem resetCore_quiescent (s : State) : quiescent (resetCore s) = true :=
  quiescent_iff.2 ⟨rfl, rfl, fun x => congrArg Session.astate (resetCore_session s x)⟩

theorem step_resetInput (ha : s.agenda = .resetInput :: rest) : step s = resetInput (s.setAgenda rest) := by
  simp only [step, stepBody, ha]

/-! The end of a run (R335). -/

theorem runOver_iff : runOver s = true ↔ (∀ e ∈ s.agenda, isRequest e = false) ∧ quiescent s = true := by
  simp only [runOver, Bool.and_eq_true, Bool.not_eq_true', List.any_eq_false, Bool.not_eq_true]

/-- Other agents may have taken events off the agenda, written the receive stream and stored to `BUF`. -/
def OthersActed (s t : State) : Prop :=
  ∃ (a : List Event) (rx : List Byte) (m : Memory),
    a <:+ s.agenda ∧ t = ((s.setAgenda a).setBuf m).setTr { s.tr with rx := rx }

theorem pollAttempt_of_idle {sid : Nat} (h : (s.session sid).astate = .idle) : pollAttempt sid s = s := by
  rw [pollAttempt, h, if_neg AState.noConfusion]

/-- A run that is over steps by what other agents do, or by the reset input: no request is left to serve, the sequencer
has no frame, and no session has an attempt to make. -/
theorem step_of_runOver (hover : runOver s = true) (hstep : step s = .next t) :
    OthersActed s t ∨ ∃ rest, s.agenda = .resetInput :: rest ∧ t = resetCore (s.setAgenda rest) := by
  obtain ⟨hserved, hquiescent⟩ := runOver_iff.1 hover
  obtain ⟨-, hidle, hnone⟩ := quiescent_iff.1 hquiescent
  have hrest {e : Event} {rest : List Event} (ha : s.agenda = e :: rest) : rest <:+ s.agenda :=
    ha ▸ List.suffix_cons e rest
  cases step_cases hstep with
  | waited ht => exact .inl ⟨s.agenda, s.tr.rx, s.buf, List.suffix_rfl, ht⟩
  | passed _ rest ha ht => exact .inl ⟨rest, s.tr.rx, s.buf, hrest ha, ht⟩
  | host r rest _ ha => exact absurd (hserved (.request r) (ha ▸ List.mem_cons_self)) Bool.noConfusion
  | frame _ _ _ hphase => exact absurd hidle hphase
  | attempt sid a ha ht =>
    have hsuffix : a <:+ s.agenda := ha.elim (fun hsame => hsame ▸ List.suffix_rfl) hrest
    rw [pollAttempt_of_idle (s := s.setAgenda a) (hnone sid)] at ht
    exact .inl ⟨a, s.tr.rx, s.buf, hsuffix, ht⟩
  | arrived bytes rest ha ht => exact .inl ⟨rest, s.tr.rx ++ bytes, s.buf, hrest ha, ht⟩
  | streamLeft bytes rest ha ht => exact .inl ⟨rest, bytes, s.buf, hrest ha, ht⟩
  | stored addr b rest ha _ ht => exact .inl ⟨rest, s.tr.rx, Memory.writeList s.buf addr [b], hrest ha, ht⟩
  | reset rest ha _ ht => exact .inr ⟨rest, ha, ht⟩

/-- What is left of an agenda without requests holds none, so that only quiescence is to be kept. -/
theorem runOver_of_suffix (hover : runOver s = true) (ha : t.agenda <:+ s.agenda) (hquiescent : quiescent t = true) :
    runOver t = true := by
  obtain ⟨hserved, -⟩ := runOver_iff.1 hover
  exact runOver_iff.2 ⟨fun e he => hserved e (ha.subset he), hquiescent⟩

end

/-- Settles O60: the registers the statement speaks of are not among those other agents write, and a core that is reset is
quiescent. -/
theorem endedRunsStayEnded : Obligations.EndedRunsStayEnded := by
  intro s t hover hstep
  obtain ⟨-, hquiescent⟩ := runOver_iff.1 hover
  obtain ⟨a, rx, m, hsuffix, rfl⟩ | ⟨rest, ha, rfl⟩ := step_of_runOver hover hstep
  · exact ⟨runOver_of_suffix hover hsuffix hquiescent, rfl, rfl, fun _ => ⟨rfl, rfl, rfl, rfl, rfl, rfl, rfl, rfl⟩⟩
  · have hsuffix : rest <:+ s.agenda := ha ▸ List.suffix_cons _ rest
    refine ⟨runOver_of_suffix hover hsuffix (resetCore_quiescent _), rfl, rfl, fun hhead => ?_⟩
    rw [ha] at hhead
    exact absurd rfl hhead

/-- Settles O4: the reset input asks for quiescence, and `resetCore` keeps what is not the core's. -/
theorem resetInputNeedsQuiescence : Obligations.ResetInputNeedsQuiescence := by
  intro s rest ha
  rw [step_resetInput ha]
  refine ⟨fun ⟨hidle, hfree, hnone⟩ => ?_, fun h => if_neg (not_quiescent (s := s.setAgenda rest) h)⟩
  have hquiescent : quiescent (s.setAgenda rest) = true := quiescent_iff.2 ⟨hfree, hidle, hnone⟩
  refine ⟨_, if_pos hquiescent, rfl, rfl, rfl, rfl, rfl, fun x => ?_, rfl, rfl, rfl, fun _ => rfl⟩
  exact ⟨resetCore_readyAt _ x, congrArg Session.holds (resetCore_session _ x)⟩

/-- Settles O1: from power-up or by the reset input, the state is a reset one. -/
theorem resetLeavesTheStatedValues : Obligations.ResetLeavesTheStatedValues := by
  intro c s hs
  obtain ⟨s0, rfl, rfl⟩ : ∃ s0 : State, s0.cfg = c ∧ s = resetCore s0 :=
    hs.elim (fun hpower => ⟨s, hpower ▸ rfl, hpower ▸ (resetCore_resetWith c).symm⟩) id
  refine ⟨rfl, List.length_replicate, resetCore_readyAt s0, rfl, rfl, rfl, List.length_replicate, fun x => ?_, rfl, rfl,
    rfl, rfl, fun ha => step_waits ha rfl⟩
  rw [resetCore_session]
  exact ⟨rfl, rfl⟩

end Sys2Proof.Proofs.ResetAndRunEnd

/-! A stale answer (70_reset_and_hazards.md R314). The bytes an exchange takes are those of one response and no more, so
that the true answer, which arrives behind a stale one, is what stays unread. -/

namespace Sys2Proof.Proofs.StaleAnswers

open Sys2Proof Sys2Proof.Machine Sys2Proof.Proofs.FailedSends Sys2Proof.Proofs.AnsweredTransfers

section

variable {s : State} {ch ch' status : Byte} {cmd : WireCmd} {pay bytes tail fresh : List Byte} {n : Nat}

/-- The next read gets `fresh` on top of what is unread, and the one after it gets nothing new (R58). -/
abbrev ArrivesOnce (s : State) (fresh : List Byte) : Prop := s.tr.arrivals.take 2 = [fresh, []]

/-- A read takes as many bytes as it asks for, of the stream and what arrives (R58). -/
theorem transportRead_leaves {more : List (List Byte)} (ha : s.tr.arrivals = fresh :: more)
    (h : s.tr.rx ++ fresh = bytes ++ tail) :
    (transportRead bytes.length s).1 = bytes ∧ (transportRead bytes.length s).2.tr.rx = tail ∧
      (transportRead bytes.length s).2.tr.arrivals = more := by
  simp [transportRead, Transport.takeArrival, Transport.record, ha, h]

/-- The payload is read only where the header declares one (R114). -/
theorem readPayload_leaves {more : List (List Byte)} (hlen : pay.length ≤ 255) (ha : s.tr.arrivals = [] :: more)
    (h : s.tr.rx = pay ++ tail) : (readPayload ch status (byteOf pay.length) s).2.tr.rx = tail := by
  have hcount : (byteOf pay.length).toNat = pay.length := by simp only [byteOf, BitVec.toNat_ofNat]; omega
  unfold readPayload
  split
  · rename_i hzero
    have hnil : pay = [] := List.eq_nil_of_length_eq_zero (by rw [← hcount, hzero]; rfl)
    simpa [hnil] using h
  · obtain ⟨-, hrx, -⟩ := transportRead_leaves (s := s.setPhase .rxp) (fresh := []) ha (by simpa using h)
    simpa [hcount] using hrx

/-- Where the second read gets nothing new, what stands behind a response stays, and no byte more (R114). -/
theorem readResponse_leaves (hlen : pay.length ≤ 255) (ha : ArrivesOnce s fresh)
    (h : s.tr.rx ++ fresh = encodeResponse ch status pay ++ tail) : (readResponse s).2.tr.rx = tail := by
  obtain ⟨more, harrivals⟩ : ∃ more, s.tr.arrivals = fresh :: [] :: more :=
    ⟨s.tr.arrivals.drop 2, by rw [← List.take_append_drop 2 s.tr.arrivals, ha]; simp⟩
  have hframe : s.tr.rx ++ fresh = [ch, status, byteOf pay.length] ++ (pay ++ tail) := by
    simpa [encodeResponse] using h
  obtain ⟨hheader, hrx, hnext⟩ := transportRead_leaves (s := s.setPhase .rxh) harrivals hframe
  simp only [List.length_cons, List.length_nil] at hheader hrx hnext
  simp only [readResponse, hheader]
  exact readPayload_leaves (s := (transportRead 3 (s.setPhase .rxh)).2.setRxhdr _) hlen hnext hrx

/-- An exchange whose request goes out takes one response off the stream (R120). -/
theorem exchange_leaves (hlen : bytes.length ≤ 255) (hw : s.tr.writeAns.head? = some true)
    (hf : s.tr.flushAns.head? = some true) (ha : ArrivesOnce s fresh)
    (h : s.tr.rx ++ fresh = encodeResponse ch' status bytes ++ tail) :
    (exchange ch cmd pay n s).2.tr.rx = tail := by
  obtain ⟨hsent, hrx, harrivals, -⟩ := sendRequest_ok (ch := ch) (cmd := cmd) (pay := pay) (n := n) hw hf
  obtain ⟨hrx', harrivals', -⟩ := waitSettle_tr cmd (sendRequest ch cmd pay n s).2
  have hleaves : (readResponse (waitSettle cmd (sendRequest ch cmd pay n s).2)).2.tr.rx = tail :=
    readResponse_leaves hlen (by rwa [ArrivesOnce, harrivals', harrivals]) (by rwa [hrx', hrx])
  simp only [exchange, hsent, if_true]
  split <;> exact hleaves

end

/-- Settles O57: to getByte the stale frame is an answer like any other, and the exchange leaves what comes behind it. -/
theorem staleAnswerIsDeliveredAsResult : Obligations.StaleAnswerIsDeliveredAsResult := by
  intro s sid stale fresh hcfg hacc hready hw hf hlen hrx ha
  have harrivals : s.tr.arrivals ≠ [] := fun hnil => by simp [hnil] at ha
  obtain ⟨t, hrun, hok, hbyte, -⟩ := getByteCompletes s sid stale hcfg hacc hready hlen
    ⟨hw, hf, harrivals, _, congrArg (· ++ _) hrx.symm⟩
  refine ⟨t, hrun, hok, hbyte, ?_⟩
  obtain ⟨hwf, hfree, -⟩ := hacc
  cases hrun.symm.trans (runRouted_accepted hwf hfree)
  have hrouted := congrArg Transport.rx (route1_tr (s := s.accept (.getByte sid)) (cmd := .getByte) (pay := [])
    (n := respLenOf s.cfg .getByte []) hready)
  exact hrouted.trans (exchange_leaves (s := s.accept (.getByte sid)) (hlen.trans_le (byte_le _)) hw hf ha
    (congrArg (· ++ fresh) hrx))

end Sys2Proof.Proofs.StaleAnswers
